-- ==== Sys2Proof/Word.lean ====
section
/-! DEFINITION. The two widths of the engine: 8-bit values and 16-bit values (00_scope.md R6, R8). -/

namespace Sys2Proof

/-- An 8-bit value: a general register, FLAG, a memory cell, a port (R6, R8). -/
abbrev Byte := BitVec 8

/-- A 16-bit value: SP, PC, an address, a register pair read as one value (R6, R8). -/
abbrev Word := BitVec 16

end Sys2Proof
end

