-- ==== Sys2Proof/Syntax.lean ====
section
/-! DEFINITION. The instructions: one constructor per mnemonic of spec/opcode_table.json, and the operand names of 30_encoding.md R103 to R107. -/

namespace Sys2Proof

/-- The operands of the register field (R103): seven registers, and M, the byte at address HL. -/
inductive Operand8 where
  | b | c | d | e | h | l | m | a
  deriving DecidableEq, Repr

/-- The operands of the `rp` field of LXI, DAD, INX, DCX (R104): BC, DE, HL, SP. -/
inductive Pair where
  | b | d | h | sp
  deriving DecidableEq, Repr

/-- The operands of the `rp` field of PUSH and POP (R105): BC, DE, HL, PSW. -/
inductive StackPair where
  | b | d | h | psw
  deriving DecidableEq, Repr

/-- The address pairs of LDAX and STAX (R104): BC, DE. -/
inductive IndexPair where
  | b | d
  deriving DecidableEq, Repr

/-- The conditions of Jcc, Ccc and Rcc (R21), in the order of their codes. -/
inductive Cond where
  | nz | z | nc | c | po | pe | p | m
  deriving DecidableEq, Repr

/-- The instructions of the opcode table, each with its operands; a two-byte operand is the value
`concat(high, low)` of R109. -/
inductive Instr where
  /-- `NOP`: R293. -/
  | nop
  /-- `LXI rp,d16`: R145; with SP, R146. -/
  | lxi (rp : Pair) (d16 : Word)
  /-- `STAX rp`: R152. -/
  | stax (rp : IndexPair)
  /-- `INX rp`: R197; with SP, R198. -/
  | inx (rp : Pair)
  /-- `INR r`: R192; with M, R193. -/
  | inr (r : Operand8)
  /-- `DCR r`: R194; with M, R195. -/
  | dcr (r : Operand8)
  /-- `MVI r,d8`: R143; with M, R144. -/
  | mvi (r : Operand8) (d8 : Byte)
  /-- `RLC`: R229. -/
  | rlc
  /-- One of the ten undefined bytes, as decode names it (`Undefined`, R112, R114). -/
  | undefined (op : Byte)
  /-- `DAD rp`: R196. -/
  | dad (rp : Pair)
  /-- `LDAX rp`: R151. -/
  | ldax (rp : IndexPair)
  /-- `DCX rp`: R199; with SP, R200. -/
  | dcx (rp : Pair)
  /-- `RRC`: R230. -/
  | rrc
  /-- `RAL`: R231. -/
  | ral
  /-- `RAR`: R232. -/
  | rar
  /-- `RIM`: R296. -/
  | rim
  /-- `SHLD a16`: R150. -/
  | shld (a16 : Word)
  /-- `DAA`: R290. -/
  | daa
  /-- `LHLD a16`: R149. -/
  | lhld (a16 : Word)
  /-- `CMA`: R236. -/
  | cma
  /-- `SIM`: R297. -/
  | sim
  /-- `STA a16`: R148. -/
  | sta (a16 : Word)
  /-- `STC`: R238. -/
  | stc
  /-- `LDA a16`: R147. -/
  | lda (a16 : Word)
  /-- `CMC`: R237. -/
  | cmc
  /-- `MOV dst,src`: R140, R141, R142. -/
  | mov (dst src : Operand8)
  /-- `HLT`: R269. -/
  | hlt
  /-- `ADD r`: R180; with M, R181. -/
  | add (r : Operand8)
  /-- `ADC r`: R183; with M, R184. -/
  | adc (r : Operand8)
  /-- `SUB r`: R186; with M, R187. -/
  | sub (r : Operand8)
  /-- `SBB r`: R189; with M, R190. -/
  | sbb (r : Operand8)
  /-- `ANA r`: R220; with M, R221. -/
  | ana (r : Operand8)
  /-- `XRA r`: R223; with M, R224. -/
  | xra (r : Operand8)
  /-- `ORA r`: R226; with M, R227. -/
  | ora (r : Operand8)
  /-- `CMP r`: R233; with M, R234. -/
  | cmp (r : Operand8)
  /-- `ADI d8`: R182. -/
  | adi (d8 : Byte)
  /-- `ACI d8`: R185. -/
  | aci (d8 : Byte)
  /-- `SUI d8`: R188. -/
  | sui (d8 : Byte)
  /-- `SBI d8`: R191. -/
  | sbi (d8 : Byte)
  /-- `ANI d8`: R222. -/
  | ani (d8 : Byte)
  /-- `XRI d8`: R225. -/
  | xri (d8 : Byte)
  /-- `ORI d8`: R228. -/
  | ori (d8 : Byte)
  /-- `CPI d8`: R235. -/
  | cpi (d8 : Byte)
  /-- `JMP a16`: R260. -/
  | jmp (a16 : Word)
  /-- `JNZ a16`: R261. -/
  | jnz (a16 : Word)
  /-- `JZ a16`: R261. -/
  | jz (a16 : Word)
  /-- `JNC a16`: R261. -/
  | jnc (a16 : Word)
  /-- `JC a16`: R261. -/
  | jc (a16 : Word)
  /-- `JPO a16`: R261. -/
  | jpo (a16 : Word)
  /-- `JPE a16`: R261. -/
  | jpe (a16 : Word)
  /-- `JP a16`: R261. -/
  | jp (a16 : Word)
  /-- `JM a16`: R261. -/
  | jm (a16 : Word)
  /-- `PCHL`: R262. -/
  | pchl
  /-- `CALL a16`: R263. -/
  | call (a16 : Word)
  /-- `CNZ a16`: R264. -/
  | cnz (a16 : Word)
  /-- `CZ a16`: R264. -/
  | cz (a16 : Word)
  /-- `CNC a16`: R264. -/
  | cnc (a16 : Word)
  /-- `CC a16`: R264. -/
  | cc (a16 : Word)
  /-- `CPO a16`: R264. -/
  | cpo (a16 : Word)
  /-- `CPE a16`: R264. -/
  | cpe (a16 : Word)
  /-- `CP a16`: R264. -/
  | cp (a16 : Word)
  /-- `CM a16`: R264. -/
  | cm (a16 : Word)
  /-- `RET`: R265. -/
  | ret
  /-- `RNZ`: R266. -/
  | rnz
  /-- `RZ`: R266. -/
  | rz
  /-- `RNC`: R266. -/
  | rnc
  /-- `RC`: R266. -/
  | rc
  /-- `RPO`: R266. -/
  | rpo
  /-- `RPE`: R266. -/
  | rpe
  /-- `RP`: R266. -/
  | rp
  /-- `RM`: R266. -/
  | rm
  /-- `RST n`: R267. -/
  | rst (n : BitVec 3)
  /-- `PUSH rp`: R156; with PSW, R157. -/
  | push (rp : StackPair)
  /-- `POP rp`: R158; with PSW, R159. -/
  | pop (rp : StackPair)
  /-- `XCHG`: R153. -/
  | xchg
  /-- `SPHL`: R154. -/
  | sphl
  /-- `XTHL`: R155. -/
  | xthl
  /-- `IN d8`: R291 (`in` is a word of Lean, so the constructor is `inp`). -/
  | inp (d8 : Byte)
  /-- `OUT d8`: R292. -/
  | out (d8 : Byte)
  /-- `EI`: R294. -/
  | ei
  /-- `DI`: R295. -/
  | di
  deriving DecidableEq, Repr

end Sys2Proof
end

