-- ==== Sys2Proof/WellFormed.lean ====
section
/-! DEFINITION. Which terms of the syntax are instructions of the hardware. -/

namespace Sys2Proof

/-- The ten undefined bytes (30_encoding.md R112). -/
def undefinedBytes : List Byte :=
  [0x08#8, 0x10#8, 0x18#8, 0x28#8, 0x38#8, 0xCB#8, 0xD9#8, 0xDD#8, 0xED#8, 0xFD#8]

/-- Well-formedness: "There is no MOV M,M" (R111), and `undefined` names one of the ten undefined bytes (R112). Every other operand is in range by its type. -/
def Instr.wf : Instr → Bool
  | .mov .m .m => false
  | .mov _ _ => true
  | .undefined op => undefinedBytes.contains op
  | .nop => true
  | .lxi _ _ => true
  | .stax _ => true
  | .inx _ => true
  | .inr _ => true
  | .dcr _ => true
  | .mvi _ _ => true
  | .rlc => true
  | .dad _ => true
  | .ldax _ => true
  | .dcx _ => true
  | .rrc => true
  | .ral => true
  | .rar => true
  | .rim => true
  | .shld _ => true
  | .daa => true
  | .lhld _ => true
  | .cma => true
  | .sim => true
  | .sta _ => true
  | .stc => true
  | .lda _ => true
  | .cmc => true
  | .hlt => true
  | .add _ => true
  | .adc _ => true
  | .sub _ => true
  | .sbb _ => true
  | .ana _ => true
  | .xra _ => true
  | .ora _ => true
  | .cmp _ => true
  | .adi _ => true
  | .aci _ => true
  | .sui _ => true
  | .sbi _ => true
  | .ani _ => true
  | .xri _ => true
  | .ori _ => true
  | .cpi _ => true
  | .jmp _ => true
  | .jnz _ => true
  | .jz _ => true
  | .jnc _ => true
  | .jc _ => true
  | .jpo _ => true
  | .jpe _ => true
  | .jp _ => true
  | .jm _ => true
  | .pchl => true
  | .call _ => true
  | .cnz _ => true
  | .cz _ => true
  | .cnc _ => true
  | .cc _ => true
  | .cpo _ => true
  | .cpe _ => true
  | .cp _ => true
  | .cm _ => true
  | .ret => true
  | .rnz => true
  | .rz => true
  | .rnc => true
  | .rc => true
  | .rpo => true
  | .rpe => true
  | .rp => true
  | .rm => true
  | .rst _ => true
  | .push _ => true
  | .pop _ => true
  | .xchg => true
  | .sphl => true
  | .xthl => true
  | .inp _ => true
  | .out _ => true
  | .ei => true
  | .di => true

end Sys2Proof
end

