-- ==== Sys2Proof/Decode.lean ====
section
/-! DEFINITION. The decoder, read from the 16 x 16 opcode map of 30_encoding.md R111, and after it the encoder, written from the field layouts of R103 to R107 and R110. Either is checked against the other by the round trip of R115. -/

namespace Sys2Proof

/-! ### Bytes of a 16-bit value (00_scope.md R9) -/

/-- `concat(h, l) = h * 256 + l` (R9). -/
def concat (h l : Byte) : Word := h ++ l

/-- `hi(v) = (v >> 8) & 0xFF` (R9). -/
def hiByte (v : Word) : Byte := v.extractLsb' 8 8

/-- `lo(v) = v & 0xFF` (R9). -/
def loByte (v : Word) : Byte := v.extractLsb' 0 8

/-! ### The opcode map -/

/-- What an opcode byte selects: an instruction of format I1, I2 or I3 (R101), the last two still
waiting for their operand. -/
inductive Pattern where
  | i1 (i : Instr)
  | i2 (f : Byte → Instr)
  | i3 (f : Word → Instr)

/-- The length of an instruction of this pattern (R100: "Determine operand byte width (0, 1, or 2) from the matched pattern"). -/
def Pattern.length : Pattern → Nat
  | .i1 _ => 1
  | .i2 _ => 2
  | .i3 _ => 3

/-- Eight cells of the map whose low three bits are the register code of a source operand (R103). -/
def sourceCells (f : Operand8 → Instr) : List (Option Pattern) :=
  [some (.i1 (f .b)), some (.i1 (f .c)), some (.i1 (f .d)), some (.i1 (f .e)),
   some (.i1 (f .h)), some (.i1 (f .l)), some (.i1 (f .m)), some (.i1 (f .a))]

/-- Row 0x of the map of R111. -/
def opcodeRow0 : List (Option Pattern) :=
  [
    some (.i1 .nop), some (.i3 (.lxi .b)), some (.i1 (.stax .b)), some (.i1 (.inx .b)),
    some (.i1 (.inr .b)), some (.i1 (.dcr .b)), some (.i2 (.mvi .b)), some (.i1 .rlc),
    none, some (.i1 (.dad .b)), some (.i1 (.ldax .b)), some (.i1 (.dcx .b)),
    some (.i1 (.inr .c)), some (.i1 (.dcr .c)), some (.i2 (.mvi .c)), some (.i1 .rrc)
  ]

/-- Row 1x of the map of R111. -/
def opcodeRow1 : List (Option Pattern) :=
  [
    none, some (.i3 (.lxi .d)), some (.i1 (.stax .d)), some (.i1 (.inx .d)),
    some (.i1 (.inr .d)), some (.i1 (.dcr .d)), some (.i2 (.mvi .d)), some (.i1 .ral),
    none, some (.i1 (.dad .d)), some (.i1 (.ldax .d)), some (.i1 (.dcx .d)),
    some (.i1 (.inr .e)), some (.i1 (.dcr .e)), some (.i2 (.mvi .e)), some (.i1 .rar)
  ]

/-- Row 2x of the map of R111. -/
def opcodeRow2 : List (Option Pattern) :=
  [
    some (.i1 .rim), some (.i3 (.lxi .h)), some (.i3 .shld), some (.i1 (.inx .h)),
    some (.i1 (.inr .h)), some (.i1 (.dcr .h)), some (.i2 (.mvi .h)), some (.i1 .daa),
    none, some (.i1 (.dad .h)), some (.i3 .lhld), some (.i1 (.dcx .h)),
    some (.i1 (.inr .l)), some (.i1 (.dcr .l)), some (.i2 (.mvi .l)), some (.i1 .cma)
  ]

/-- Row 3x of the map of R111. -/
def opcodeRow3 : List (Option Pattern) :=
  [
    some (.i1 .sim), some (.i3 (.lxi .sp)), some (.i3 .sta), some (.i1 (.inx .sp)),
    some (.i1 (.inr .m)), some (.i1 (.dcr .m)), some (.i2 (.mvi .m)), some (.i1 .stc),
    none, some (.i1 (.dad .sp)), some (.i3 .lda), some (.i1 (.dcx .sp)),
    some (.i1 (.inr .a)), some (.i1 (.dcr .a)), some (.i2 (.mvi .a)), some (.i1 .cmc)
  ]

/-- Row 4x of the map of R111: MOV B,r and MOV C,r. -/
def opcodeRow4 : List (Option Pattern) := sourceCells (.mov .b) ++ sourceCells (.mov .c)

/-- Row 5x of the map of R111: MOV D,r and MOV E,r. -/
def opcodeRow5 : List (Option Pattern) := sourceCells (.mov .d) ++ sourceCells (.mov .e)

/-- Row 6x of the map of R111: MOV H,r and MOV L,r. -/
def opcodeRow6 : List (Option Pattern) := sourceCells (.mov .h) ++ sourceCells (.mov .l)

/-- Row 7x of the map of R111: MOV M,r with HLT in the slot of MOV M,M, and MOV A,r. -/
def opcodeRow7 : List (Option Pattern) :=
  [
    some (.i1 (.mov .m .b)), some (.i1 (.mov .m .c)), some (.i1 (.mov .m .d)),
    some (.i1 (.mov .m .e)), some (.i1 (.mov .m .h)), some (.i1 (.mov .m .l)),
    some (.i1 .hlt), some (.i1 (.mov .m .a))
  ]
  ++ sourceCells (.mov .a)

/-- Row 8x of the map of R111: ADD r and ADC r. -/
def opcodeRow8 : List (Option Pattern) := sourceCells .add ++ sourceCells .adc

/-- Row 9x of the map of R111: SUB r and SBB r. -/
def opcodeRow9 : List (Option Pattern) := sourceCells .sub ++ sourceCells .sbb

/-- Row Ax of the map of R111: ANA r and XRA r. -/
def opcodeRowA : List (Option Pattern) := sourceCells .ana ++ sourceCells .xra

/-- Row Bx of the map of R111: ORA r and CMP r. -/
def opcodeRowB : List (Option Pattern) := sourceCells .ora ++ sourceCells .cmp

/-- Row Cx of the map of R111. -/
def opcodeRowC : List (Option Pattern) :=
  [
    some (.i1 .rnz), some (.i1 (.pop .b)), some (.i3 .jnz), some (.i3 .jmp),
    some (.i3 .cnz), some (.i1 (.push .b)), some (.i2 .adi), some (.i1 (.rst 0)),
    some (.i1 .rz), some (.i1 .ret), some (.i3 .jz), none,
    some (.i3 .cz), some (.i3 .call), some (.i2 .aci), some (.i1 (.rst 1))
  ]

/-- Row Dx of the map of R111. -/
def opcodeRowD : List (Option Pattern) :=
  [
    some (.i1 .rnc), some (.i1 (.pop .d)), some (.i3 .jnc), some (.i2 .out),
    some (.i3 .cnc), some (.i1 (.push .d)), some (.i2 .sui), some (.i1 (.rst 2)),
    some (.i1 .rc), none, some (.i3 .jc), some (.i2 .inp),
    some (.i3 .cc), none, some (.i2 .sbi), some (.i1 (.rst 3))
  ]

/-- Row Ex of the map of R111. -/
def opcodeRowE : List (Option Pattern) :=
  [
    some (.i1 .rpo), some (.i1 (.pop .h)), some (.i3 .jpo), some (.i1 .xthl),
    some (.i3 .cpo), some (.i1 (.push .h)), some (.i2 .ani), some (.i1 (.rst 4)),
    some (.i1 .rpe), some (.i1 .pchl), some (.i3 .jpe), some (.i1 .xchg),
    some (.i3 .cpe), none, some (.i2 .xri), some (.i1 (.rst 5))
  ]

/-- Row Fx of the map of R111. -/
def opcodeRowF : List (Option Pattern) :=
  [
    some (.i1 .rp), some (.i1 (.pop .psw)), some (.i3 .jp), some (.i1 .di),
    some (.i3 .cp), some (.i1 (.push .psw)), some (.i2 .ori), some (.i1 (.rst 6)),
    some (.i1 .rm), some (.i1 .sphl), some (.i3 .jm), some (.i1 .ei),
    some (.i3 .cm), none, some (.i2 .cpi), some (.i1 (.rst 7))
  ]

/-- The map of R111: a row for each high nibble, a cell for each low nibble; `none` is an undefined byte. -/
def opcodeMap : List (List (Option Pattern)) :=
  [opcodeRow0, opcodeRow1, opcodeRow2, opcodeRow3, opcodeRow4, opcodeRow5, opcodeRow6, opcodeRow7,
   opcodeRow8, opcodeRow9, opcodeRowA, opcodeRowB, opcodeRowC, opcodeRowD, opcodeRowE, opcodeRowF]

/-- The pattern of an opcode byte; a byte without one is `Undefined` (R112, R114). -/
def patternOf (op : Byte) : Pattern :=
  match (opcodeMap.getD (op.toNat / 16) []).getD (op.toNat % 16) none with
  | some p => p
  | none => .i1 (.undefined op)

/-- The length of the instruction that starts with this opcode byte, a function of the byte alone (R102). -/
def lengthOf (op : Byte) : Nat := (patternOf op).length

/-- The instruction of an opcode byte and the two bytes after it, of which it uses as many as its length says; the first operand byte is the high byte (R13, R108, R109). -/
def instrOf (op b1 b2 : Byte) : Instr :=
  match patternOf op with
  | .i1 i => i
  | .i2 f => f b1
  | .i3 f => f (concat b1 b2)

/-- Why a list of bytes holds no whole instruction. -/
inductive DecodeError where
  /-- The list is empty. -/
  | noOpcode
  /-- The opcode byte `op` asks for more operand bytes than the list holds. -/
  | missingOperand (op : Byte)
  deriving DecidableEq, Repr

/-- The decoder: the first instruction of a list of bytes and the bytes after it, or the reason there is none. Total on any bytes: every opcode byte has a pattern (R114). -/
def decode : List Byte → Except DecodeError (Instr × List Byte)
  | [] => .error .noOpcode
  | op :: rest =>
    match patternOf op, rest with
    | .i1 i, rest => .ok (i, rest)
    | .i2 f, b1 :: rest => .ok (f b1, rest)
    | .i3 f, b1 :: b2 :: rest => .ok (f (concat b1 b2), rest)
    | _, _ => .error (.missingOperand op)

/-- The bytes of an instruction given as one number: bits 7..0 the opcode byte, bits 15..8 the byte after it, bits 23..16 the third; bits above `nbits` are 0. -/
def tableBytes (nbits w : Nat) : List Byte :=
  let v := w % 2 ^ nbits
  [BitVec.ofNat 8 v, BitVec.ofNat 8 (v / 256), BitVec.ofNat 8 (v / 65536)]

/-- The instruction the decoder reads from the bytes of a word of the opcode table. -/
def decodeTableWord (nbits w : Nat) : Option Instr :=
  match decode (tableBytes nbits w) with
  | .ok (i, _) => some i
  | .error _ => none

/-! ### The encoder -/

/-- The register code (R103). -/
def operandCode : Operand8 → BitVec 3
  | .b => 0b000#3
  | .c => 0b001#3
  | .d => 0b010#3
  | .e => 0b011#3
  | .h => 0b100#3
  | .l => 0b101#3
  | .m => 0b110#3
  | .a => 0b111#3

/-- The `rp` code of LXI, DAD, INX and DCX (R104). -/
def pairCode : Pair → BitVec 2
  | .b => 0b00#2
  | .d => 0b01#2
  | .h => 0b10#2
  | .sp => 0b11#2

/-- The `rp` code of PUSH and POP (R105). -/
def stackPairCode : StackPair → BitVec 2
  | .b => 0b00#2
  | .d => 0b01#2
  | .h => 0b10#2
  | .psw => 0b11#2

/-- Bit 4 of LDAX and STAX (R104). -/
def indexCode : IndexPair → BitVec 1
  | .b => 0b0#1
  | .d => 0b1#1

/-- The condition code (R21, R106). -/
def condCode : Cond → BitVec 3
  | .nz => 0b000#3
  | .z => 0b001#3
  | .nc => 0b010#3
  | .c => 0b011#3
  | .po => 0b100#3
  | .pe => 0b101#3
  | .p => 0b110#3
  | .m => 0b111#3

/-- A byte of the register ALU group, `10 ooo sss` (R110). -/
def aluByte (ooo : BitVec 3) (r : Operand8) : Byte := 0b10#2 ++ ooo ++ operandCode r

/-- A byte of Jcc, Ccc or Rcc, `11 ccc xxx` (R106). -/
def condByte (cc : Cond) (low : BitVec 3) : Byte := 0b11#2 ++ condCode cc ++ low

/-- The opcode byte of an instruction, from the field layouts of R103 to R107 and R110. -/
def opcodeByte : Instr → Byte
  | .nop => 0x00#8
  | .lxi rp _ => 0b00#2 ++ pairCode rp ++ 0b0001#4
  | .stax rp => 0b000#3 ++ indexCode rp ++ 0b0010#4
  | .inx rp => 0b00#2 ++ pairCode rp ++ 0b0011#4
  | .inr r => 0b00#2 ++ operandCode r ++ 0b100#3
  | .dcr r => 0b00#2 ++ operandCode r ++ 0b101#3
  | .mvi r _ => 0b00#2 ++ operandCode r ++ 0b110#3
  | .rlc => 0x07#8
  | .undefined op => op
  | .dad rp => 0b00#2 ++ pairCode rp ++ 0b1001#4
  | .ldax rp => 0b000#3 ++ indexCode rp ++ 0b1010#4
  | .dcx rp => 0b00#2 ++ pairCode rp ++ 0b1011#4
  | .rrc => 0x0F#8
  | .ral => 0x17#8
  | .rar => 0x1F#8
  | .rim => 0x20#8
  | .shld _ => 0x22#8
  | .daa => 0x27#8
  | .lhld _ => 0x2A#8
  | .cma => 0x2F#8
  | .sim => 0x30#8
  | .sta _ => 0x32#8
  | .stc => 0x37#8
  | .lda _ => 0x3A#8
  | .cmc => 0x3F#8
  | .mov dst src => 0b01#2 ++ operandCode dst ++ operandCode src
  | .hlt => 0x76#8
  | .add r => aluByte 0b000#3 r
  | .adc r => aluByte 0b001#3 r
  | .sub r => aluByte 0b010#3 r
  | .sbb r => aluByte 0b011#3 r
  | .ana r => aluByte 0b100#3 r
  | .xra r => aluByte 0b101#3 r
  | .ora r => aluByte 0b110#3 r
  | .cmp r => aluByte 0b111#3 r
  | .adi _ => 0b11#2 ++ 0b000#3 ++ 0b110#3
  | .aci _ => 0b11#2 ++ 0b001#3 ++ 0b110#3
  | .sui _ => 0b11#2 ++ 0b010#3 ++ 0b110#3
  | .sbi _ => 0b11#2 ++ 0b011#3 ++ 0b110#3
  | .ani _ => 0b11#2 ++ 0b100#3 ++ 0b110#3
  | .xri _ => 0b11#2 ++ 0b101#3 ++ 0b110#3
  | .ori _ => 0b11#2 ++ 0b110#3 ++ 0b110#3
  | .cpi _ => 0b11#2 ++ 0b111#3 ++ 0b110#3
  | .jmp _ => 0xC3#8
  | .jnz _ => condByte .nz 0b010#3
  | .jz _ => condByte .z 0b010#3
  | .jnc _ => condByte .nc 0b010#3
  | .jc _ => condByte .c 0b010#3
  | .jpo _ => condByte .po 0b010#3
  | .jpe _ => condByte .pe 0b010#3
  | .jp _ => condByte .p 0b010#3
  | .jm _ => condByte .m 0b010#3
  | .pchl => 0xE9#8
  | .call _ => 0xCD#8
  | .cnz _ => condByte .nz 0b100#3
  | .cz _ => condByte .z 0b100#3
  | .cnc _ => condByte .nc 0b100#3
  | .cc _ => condByte .c 0b100#3
  | .cpo _ => condByte .po 0b100#3
  | .cpe _ => condByte .pe 0b100#3
  | .cp _ => condByte .p 0b100#3
  | .cm _ => condByte .m 0b100#3
  | .ret => 0xC9#8
  | .rnz => condByte .nz 0b000#3
  | .rz => condByte .z 0b000#3
  | .rnc => condByte .nc 0b000#3
  | .rc => condByte .c 0b000#3
  | .rpo => condByte .po 0b000#3
  | .rpe => condByte .pe 0b000#3
  | .rp => condByte .p 0b000#3
  | .rm => condByte .m 0b000#3
  | .rst n => 0b11#2 ++ n ++ 0b111#3
  | .push rp => 0b11#2 ++ stackPairCode rp ++ 0b0101#4
  | .pop rp => 0b11#2 ++ stackPairCode rp ++ 0b0001#4
  | .xchg => 0xEB#8
  | .sphl => 0xF9#8
  | .xthl => 0xE3#8
  | .inp _ => 0xDB#8
  | .out _ => 0xD3#8
  | .ei => 0xFB#8
  | .di => 0xF3#8

/-- The operand bytes of an instruction: d8, or the high and then the low byte of d16 or a16 (R101). -/
def operandBytes : Instr → List Byte
  | .mvi _ d8 => [d8]
  | .adi d8 => [d8]
  | .aci d8 => [d8]
  | .sui d8 => [d8]
  | .sbi d8 => [d8]
  | .ani d8 => [d8]
  | .xri d8 => [d8]
  | .ori d8 => [d8]
  | .cpi d8 => [d8]
  | .inp d8 => [d8]
  | .out d8 => [d8]
  | .lxi _ d16 => [hiByte d16, loByte d16]
  | .shld a16 => [hiByte a16, loByte a16]
  | .lhld a16 => [hiByte a16, loByte a16]
  | .sta a16 => [hiByte a16, loByte a16]
  | .lda a16 => [hiByte a16, loByte a16]
  | .jmp a16 => [hiByte a16, loByte a16]
  | .jnz a16 => [hiByte a16, loByte a16]
  | .jz a16 => [hiByte a16, loByte a16]
  | .jnc a16 => [hiByte a16, loByte a16]
  | .jc a16 => [hiByte a16, loByte a16]
  | .jpo a16 => [hiByte a16, loByte a16]
  | .jpe a16 => [hiByte a16, loByte a16]
  | .jp a16 => [hiByte a16, loByte a16]
  | .jm a16 => [hiByte a16, loByte a16]
  | .call a16 => [hiByte a16, loByte a16]
  | .cnz a16 => [hiByte a16, loByte a16]
  | .cz a16 => [hiByte a16, loByte a16]
  | .cnc a16 => [hiByte a16, loByte a16]
  | .cc a16 => [hiByte a16, loByte a16]
  | .cpo a16 => [hiByte a16, loByte a16]
  | .cpe a16 => [hiByte a16, loByte a16]
  | .cp a16 => [hiByte a16, loByte a16]
  | .cm a16 => [hiByte a16, loByte a16]
  | .nop => []
  | .stax _ => []
  | .inx _ => []
  | .inr _ => []
  | .dcr _ => []
  | .rlc => []
  | .undefined _ => []
  | .dad _ => []
  | .ldax _ => []
  | .dcx _ => []
  | .rrc => []
  | .ral => []
  | .rar => []
  | .rim => []
  | .daa => []
  | .cma => []
  | .sim => []
  | .stc => []
  | .cmc => []
  | .mov _ _ => []
  | .hlt => []
  | .add _ => []
  | .adc _ => []
  | .sub _ => []
  | .sbb _ => []
  | .ana _ => []
  | .xra _ => []
  | .ora _ => []
  | .cmp _ => []
  | .pchl => []
  | .ret => []
  | .rnz => []
  | .rz => []
  | .rnc => []
  | .rc => []
  | .rpo => []
  | .rpe => []
  | .rp => []
  | .rm => []
  | .rst _ => []
  | .push _ => []
  | .pop _ => []
  | .xchg => []
  | .sphl => []
  | .xthl => []
  | .ei => []
  | .di => []

/-- The bytes of an instruction, the opcode byte at the lowest address (R100, R101). -/
def encode (i : Instr) : List Byte := opcodeByte i :: operandBytes i

/-- The length of an instruction in bytes (R22, R100). -/
def instrLength (i : Instr) : Nat := (encode i).length

end Sys2Proof
end

