-- ==== Sys2Proof/Config.lean ====
section
/-! DEFINITION. The six named configuration parameters of 00_scope.md R7. The spec leaves no result undefined, so there is no free value here. -/

namespace Sys2Proof

/-- `DATA_WORD_ORDER` (R7, R14, R74): which address of a two-byte data word holds its high byte. -/
inductive WordOrder where
  | highAtLower
  | lowAtLower
  deriving DecidableEq, Repr

/-- `WRAP16` (R7, R10, R11): what an address or an SP or PC value outside [0, 0xFFFF] does. -/
inductive Wrap16 where
  | fault
  | wrap
  deriving DecidableEq, Repr

/-- `AC_SUB_MODE` (R7, R19): how AC reports the half-borrow of a subtraction. -/
inductive AcSubMode where
  | halfBorrow
  | notHalfBorrow
  deriving DecidableEq, Repr

/-- `DAA_MODE` and `IO_MODE` (R7, R290 to R292): raise `NotImplemented`, or the datasheet effect. -/
inductive ServiceMode where
  | fault
  | datasheet
  deriving DecidableEq, Repr

/-- The configuration record of R7. It is fixed for a machine: no instruction and no host operation changes it. -/
structure Config where
  /-- `DATA_WORD_ORDER` -/
  dataWordOrder : WordOrder
  /-- `WRAP16` -/
  wrap16 : Wrap16
  /-- `AC_SUB_MODE` -/
  acSubMode : AcSubMode
  /-- `RST_PUSHES` -/
  rstPushes : Bool
  /-- `DAA_MODE` -/
  daaMode : ServiceMode
  /-- `IO_MODE` -/
  ioMode : ServiceMode
  deriving DecidableEq, Repr

end Sys2Proof
end

