-- ==== Sys2Proof/Machine/Setup.lean ====
section
/-! DEFINITION. The configuration the machine is reset with. -/

namespace Sys2Proof.Machine

/-- The spec's defaults of the six parameters (00_scope.md R7, 92_eei_decisions.md). DESIGN CHOICE (log entry 1): the record is carried in `State.cfg`, so that every other configuration is a state too. -/
def defaultConfig : Config where
  dataWordOrder := .highAtLower
  wrap16 := .fault
  acSubMode := .halfBorrow
  rstPushes := true
  daaMode := .fault
  ioMode := .fault

end Sys2Proof.Machine
end

