-- ==== Sys2Proof/Machine/State.lean ====
section
/-! DEFINITION. The state of the engine (10_state.md R40), the fault record, the ways a step can stop, and the state after reset. -/

namespace Sys2Proof.Machine

/-! ### Fault records (10_state.md R52, 60_exceptions.md R310) -/

/-- The four fault kinds (R310). -/
inductive FaultKind where
  | unknownOpcode
  | notImplemented
  | addressOutOfBounds
  | registerOutOfRange
  deriving DecidableEq, Repr

/-- The 16-bit registers that `V16` checks (00_scope.md R11). -/
inductive WideReg where
  | sp
  | pc
  deriving DecidableEq, Repr

/-- The `info` of a fault record (R310): nothing, the address x, or the register R and the value x. -/
inductive FaultInfo where
  | none
  | address (x : Int)
  | register (r : WideReg) (x : Int)
  deriving DecidableEq, Repr

/-- A fault record `{kind, code, pc, opcode, info}` (R52). -/
structure FaultRecord where
  kind : FaultKind
  /-- The number R310 gives the kind. -/
  code : Nat
  /-- The address of the faulting instruction's opcode byte (R310). -/
  pc : Word
  /-- That byte (R310). -/
  opcode : Byte
  info : FaultInfo
  deriving DecidableEq, Repr

/-! ### Memory -/

/-- A byte array of fixed size in one canonical form: (index, byte) pairs, indexes strictly rising and below the size, none with the value an unlisted index reads as. Used for memory (65536 bytes, R53) and for the ports (256 bytes, R54). -/
abbrev Memory := List Host.Cell

/-- The number of memory cells (R6, R53). -/
def memorySize : Nat := 65536

/-- The number of ports (R6, R54). -/
def portCount : Nat := 256

/-! ### The state -/

/-- The engine's state, "one record with exactly these components" (R40), and beside it the configuration record of 00_scope.md R7, which is not state of the engine and which nothing changes (log entry 1). Register pairs are views, not state (R43). -/
structure State where
  /-- The configuration (R7). DESIGN CHOICE (log entry 1): carried here, read by every rule by name, written by none. -/
  cfg : Config
  /-- A, the accumulator (R41). -/
  a : Byte
  /-- B (R41). -/
  b : Byte
  /-- C (R41). -/
  c : Byte
  /-- D (R41). -/
  d : Byte
  /-- E (R41). -/
  e : Byte
  /-- H (R41). -/
  h : Byte
  /-- L (R41). -/
  l : Byte
  /-- FLAG: S 7, Z 6, AC 4, P 2, CY 0; bits 5, 3, 1 reserved (R47, R49). -/
  flag : Byte
  /-- SP (R45). -/
  sp : Word
  /-- PC, the address of the next instruction's opcode byte (R46). -/
  pc : Word
  /-- The halt latch (R51). -/
  isHalted : Bool
  /-- The fault latch (R52); `none` is the spec's own "none". -/
  fault : Option FaultRecord
  /-- The 65536 bytes of memory (R53). -/
  mem : Memory
  /-- The 256 ports (R54). -/
  port : Memory
  deriving DecidableEq, Repr

/-! ### How a step can stop -/

/-- Why the machine stops with a fault. -/
inductive Fault where
  /-- Raised by `step`, and by nothing else, when the fault latch holds `r`: "`step` and `run` execute no instruction and return that fault again" (60_exceptions.md R316). Safe: it is what the spec says. A step that MEETS a fault is not this: it answers a next state with the latch written (log entry 2). -/
  | latched (r : FaultRecord)
  deriving DecidableEq, Repr

/-- Why an instruction has no meaning in the model. -/
inductive Refusal where
  /-- Raised by an arm of `exec` whose instruction has no meaning yet. Safe. No arm does: every instruction has its meaning, so no step answers it. -/
  | notModelled (mnemonic : String)
  deriving DecidableEq, Repr

/-- The outcome of an instruction or a step. -/
abbrev Result := Host.Outcome State Fault Refusal

/-- The state after reset (R56, 70_reset_and_hazards.md R350), with the spec's default configuration (R7). -/
def State.reset : State where
  cfg := defaultConfig
  a := 0x00#8
  b := 0x00#8
  c := 0x00#8
  d := 0x00#8
  e := 0x00#8
  h := 0x00#8
  l := 0x00#8
  flag := 0x00#8
  sp := 0x0000#16
  pc := 0x0000#16
  isHalted := true
  fault := none
  mem := []
  port := []

end Sys2Proof.Machine
end

