-- ==== Sys2Proof/Machine/Ops.lean ====
section
/-! DEFINITION. The shared operations: memory and ports, the checked addresses and registers of 00_scope.md R10 and R11, data words, the stack, raising a fault, and ending an instruction. -/

namespace Sys2Proof.Machine

/-! ### Byte arrays in canonical form -/

/-- What an unlisted cell reads as: the reset contents, 0x00 (10_state.md R53, R54, R56). -/
def unlistedByte : Byte := 0x00#8

/-- The byte at index `x`. -/
def Memory.read : Memory → Nat → Byte
  | [], _ => unlistedByte
  | (y, v) :: rest, x => if y = x then v else Memory.read rest x

/-- Drops every entry of index `x`. -/
def Memory.erase (m : Memory) (x : Nat) : Memory := m.filter (fun cell => cell.1 != x)

/-- Puts an entry before the first entry of a larger index. -/
def Memory.insert (x : Nat) (v : Byte) : Memory → Memory
  | [] => [(x, v)]
  | (y, w) :: rest => if x < y then (x, v) :: (y, w) :: rest else (y, w) :: Memory.insert x v rest

/-- Writes `v` at index `x`, keeping the canonical form. -/
def Memory.write (m : Memory) (x : Nat) (v : Byte) : Memory :=
  if v = unlistedByte then Memory.erase m x else Memory.insert x v (Memory.erase m x)

/-- Whether the indexes rise strictly from `low` on, stay below `size`, and no entry has the unlisted value. -/
def Memory.wfFrom (size low : Nat) : Memory → Bool
  | [] => true
  | (x, v) :: rest => low ≤ x && x < size && v != unlistedByte && Memory.wfFrom size (x + 1) rest

/-- The canonical form of an array of `size` bytes. -/
def Memory.wf (size : Nat) (m : Memory) : Bool := Memory.wfFrom size 0 m

/-! ### Memory and ports of a state (R12) -/

/-- `MemRead(addr, 1)` (R12). -/
def memRead (s : State) (addr : Word) : Byte := Memory.read s.mem addr.toNat

/-- `MemWrite(addr, 1, v)` (R12). -/
def memWrite (s : State) (addr : Word) (v : Byte) : State :=
  { s with mem := Memory.write s.mem addr.toNat v }

/-- `PortRead(p)` (R12). -/
def portRead (s : State) (p : Byte) : Byte := Memory.read s.port p.toNat

/-- `PortWrite(p, v)` (R12). -/
def portWrite (s : State) (p : Byte) (v : Byte) : State :=
  { s with port := Memory.write s.port p.toNat v }

/-! ### Faults (R16, 60_exceptions.md R310 to R319) -/

/-- What `raise` names: a fault kind with its `info` (R16, R310). -/
inductive Raise where
  | unknownOpcode
  | notImplemented
  | addressOutOfBounds (x : Int)
  | registerOutOfRange (r : WideReg) (x : Int)
  deriving DecidableEq, Repr

/-- The kind of a raise (R310). -/
def raiseKind : Raise → FaultKind
  | .unknownOpcode => .unknownOpcode
  | .notImplemented => .notImplemented
  | .addressOutOfBounds _ => .addressOutOfBounds
  | .registerOutOfRange _ _ => .registerOutOfRange

/-- The code of a fault kind (R310). -/
def kindCode : FaultKind → Nat
  | .unknownOpcode => 1
  | .notImplemented => 2
  | .addressOutOfBounds => 3
  | .registerOutOfRange => 4

/-- The `info` of a raise (R310). -/
def raiseInfo : Raise → FaultInfo
  | .unknownOpcode => .none
  | .notImplemented => .none
  | .addressOutOfBounds x => .address x
  | .registerOutOfRange r x => .register r x

/-- The record a raise leaves: the instruction at `pc` with opcode byte `op` met `f` (R310). -/
def faultRecord (pc : Word) (op : Byte) (f : Raise) : FaultRecord where
  kind := raiseKind f
  code := kindCode (raiseKind f)
  pc := pc
  opcode := op
  info := raiseInfo f

/-- TAKING A FAULT: from the state `s` before the step, whose instruction has the opcode byte `op`, the only write is the fault latch (R16, R315); nothing is saved on the stack, no mode changes and control goes to no vector (R319). There is no return from it (R320). -/
def takeFault (s : State) (op : Byte) (f : Raise) : State :=
  { s with fault := some (faultRecord s.pc op f) }

/-- The end of a step: the staged writes are committed when nothing was raised, and otherwise only the fault is taken, from the state before the step (R16, R315). -/
def commit (op : Byte) (s : State) : Except Raise State → Result
  | .ok t => .next t
  | .error f => .next (takeFault s op f)

/-! ### Checked addresses and registers (R10, R11) -/

/-- `A16(x)` (R10). -/
def a16 (cfg : Config) (x : Int) : Except Raise Word :=
  match cfg.wrap16 with
  | .wrap => .ok (BitVec.ofInt 16 x)
  | .fault => if 0 ≤ x ∧ x ≤ 0xFFFF then .ok (BitVec.ofInt 16 x) else .error (.addressOutOfBounds x)

/-- `V16(R, x)` (R11). -/
def v16 (cfg : Config) (r : WideReg) (x : Int) : Except Raise Word :=
  match cfg.wrap16 with
  | .wrap => .ok (BitVec.ofInt 16 x)
  | .fault => if 0 ≤ x ∧ x ≤ 0xFFFF then .ok (BitVec.ofInt 16 x) else .error (.registerOutOfRange r x)

/-! ### Data words (R14) -/

/-- The two bytes of a data word, the one at the lower address first, as one value. -/
def joinWord (cfg : Config) (b0 b1 : Byte) : Word :=
  match cfg.dataWordOrder with
  | .highAtLower => concat b0 b1
  | .lowAtLower => concat b1 b0

/-- The byte of a data word that lies at the lower address. -/
def lowerByte (cfg : Config) (v : Word) : Byte :=
  match cfg.dataWordOrder with
  | .highAtLower => hiByte v
  | .lowAtLower => loByte v

/-- The byte of a data word that lies at the higher address. -/
def upperByte (cfg : Config) (v : Word) : Byte :=
  match cfg.dataWordOrder with
  | .highAtLower => loByte v
  | .lowAtLower => hiByte v

/-- `Read16(a)` (R14). -/
def read16 (s : State) (x : Int) : Except Raise Word := do
  let a0 ← a16 s.cfg x
  let a1 ← a16 s.cfg (x + 1)
  .ok (joinWord s.cfg (memRead s a0) (memRead s a1))

/-- `Write16(a, v)` (R14): both addresses are checked before either byte is written. -/
def write16 (s : State) (x : Int) (v : Word) : Except Raise State := do
  let a0 ← a16 s.cfg x
  let a1 ← a16 s.cfg (x + 1)
  .ok (memWrite (memWrite s a0 (lowerByte s.cfg v)) a1 (upperByte s.cfg v))

/-! ### The stack (R15) -/

/-- `Push16(v)` (R15): `n = SP - 2; Write16(n, v); SP <- V16(SP, n)`. -/
def push16 (s : State) (v : Word) : Except Raise State := do
  let t ← write16 s ((s.sp.toNat : Int) - 2) v
  let sp ← v16 s.cfg .sp ((s.sp.toNat : Int) - 2)
  .ok { t with sp := sp }

/-- `Pop16()` (R15): the popped word, and the state with SP moved. -/
def pop16 (s : State) : Except Raise (Word × State) := do
  let v ← read16 s s.sp.toNat
  let sp ← v16 s.cfg .sp (s.sp.toNat + 2)
  .ok (v, { s with sp := sp })

/-! ### The end of an instruction (R22) -/

/-- `V16(PC, PC + n)`: the address `n` bytes after the opcode byte (R22, R263). -/
def pcAfter (s : State) (n : Nat) : Except Raise Word := v16 s.cfg .pc (s.pc.toNat + n)

/-- `PC <- V16(PC, PC + n)` (R22). -/
def advance (n : Nat) (t : State) : Except Raise State := do
  let p ← pcAfter t n
  .ok { t with pc := p }

/-- An instruction whose rule does not write PC: its body, then the PC advance by its length (R22, R318 (5) and (6)). -/
def sequential (i : Instr) (s : State) (body : Except Raise State) : Result :=
  commit (opcodeByte i) s (body >>= advance (instrLength i))

/-- An instruction whose rule writes PC itself (R22). -/
def transfer (i : Instr) (s : State) (body : Except Raise State) : Result :=
  commit (opcodeByte i) s body

end Sys2Proof.Machine
end

