-- ==== Sys2Proof/Machine/Operands.lean ====
section
/-! DEFINITION. The operand forms: the register code with M, the register pairs, and the conditions. -/

namespace Sys2Proof.Machine

/-- BC (10_state.md R43). -/
def regBC (s : State) : Word := concat s.b s.c

/-- DE (R43). -/
def regDE (s : State) : Word := concat s.d s.e

/-- HL (R43), the address of the operand M. -/
def regHL (s : State) : Word := concat s.h s.l

/-- `r(c)` as a source (30_encoding.md R103). -/
def readOperand (s : State) : Operand8 → Byte
  | .b => s.b
  | .c => s.c
  | .d => s.d
  | .e => s.e
  | .h => s.h
  | .l => s.l
  | .m => memRead s (regHL s)
  | .a => s.a

/-- `r(c) <- v` (R103). -/
def writeOperand (s : State) (r : Operand8) (v : Byte) : State :=
  match r with
  | .b => { s with b := v }
  | .c => { s with c := v }
  | .d => { s with d := v }
  | .e => { s with e := v }
  | .h => { s with h := v }
  | .l => { s with l := v }
  | .m => memWrite s (regHL s) v
  | .a => { s with a := v }

/-- The value of a pair operand (R43, R104). -/
def readPair (s : State) : Pair → Word
  | .b => regBC s
  | .d => regDE s
  | .h => regHL s
  | .sp => s.sp

/-- Writes a 16-bit value to a pair operand: its high byte to the high register, its low byte to the low register (R43). -/
def writePair (s : State) (rp : Pair) (v : Word) : State :=
  match rp with
  | .b => { s with b := hiByte v, c := loByte v }
  | .d => { s with d := hiByte v, e := loByte v }
  | .h => { s with h := hiByte v, l := loByte v }
  | .sp => { s with sp := v }

/-- The value PUSH pushes (R44, R105). -/
def readStackPair (s : State) : StackPair → Word
  | .b => regBC s
  | .d => regDE s
  | .h => regHL s
  | .psw => concat s.a s.flag

/-- Where POP puts the popped value (R44, R105). -/
def writeStackPair (s : State) (rp : StackPair) (v : Word) : State :=
  match rp with
  | .b => { s with b := hiByte v, c := loByte v }
  | .d => { s with d := hiByte v, e := loByte v }
  | .h => { s with h := hiByte v, l := loByte v }
  | .psw => { s with a := hiByte v, flag := loByte v }

/-- The address of LDAX and STAX (R104). -/
def readIndex (s : State) : IndexPair → Word
  | .b => regBC s
  | .d => regDE s

/-- INX and DCX (R197 to R200): a pair changes by `delta` modulo 65536 without a fault (R43); SP goes through `V16` (R45). -/
def stepPair (s : State) (rp : Pair) (delta : Int) : Except Raise State :=
  match rp with
  | .b => .ok (writePair s .b (regBC s + BitVec.ofInt 16 delta))
  | .d => .ok (writePair s .d (regDE s + BitVec.ofInt 16 delta))
  | .h => .ok (writePair s .h (regHL s + BitVec.ofInt 16 delta))
  | .sp => do
    let v ← v16 s.cfg .sp (s.sp.toNat + delta)
    .ok { s with sp := v }

end Sys2Proof.Machine
end

