-- ==== Sys2Proof/Machine/Flags.lean ====
section
/-! DEFINITION. FLAG and every flag computation: the bits of 10_state.md R47, and the helpers of 00_scope.md R17 to R21. -/

namespace Sys2Proof.Machine

/-! ### Bits of FLAG (R20, R47) -/

/-- A byte with bit `i` set to `x`, the other bits unchanged. -/
def setBit (f : Byte) (i : Nat) (x : Bool) : Byte :=
  if x then f ||| (0x01#8 <<< i) else f &&& ~~~(0x01#8 <<< i)

/-- CY, FLAG[0]. -/
def flagCY (f : Byte) : Bool := f.getLsbD 0

/-- P, FLAG[2]. -/
def flagP (f : Byte) : Bool := f.getLsbD 2

/-- AC, FLAG[4]. -/
def flagAC (f : Byte) : Bool := f.getLsbD 4

/-- Z, FLAG[6]. -/
def flagZ (f : Byte) : Bool := f.getLsbD 6

/-- S, FLAG[7]. -/
def flagS (f : Byte) : Bool := f.getLsbD 7

/-- `CY <- x` (R20). -/
def withCY (f : Byte) (x : Bool) : Byte := setBit f 0 x

/-- `AC <- x` (R20). -/
def withAC (f : Byte) (x : Bool) : Byte := setBit f 4 x

/-- The number of 1 bits of a byte. -/
def onesCount (v : Byte) : Nat :=
  (v.getLsbD 0).toNat + (v.getLsbD 1).toNat + (v.getLsbD 2).toNat + (v.getLsbD 3).toNat
    + (v.getLsbD 4).toNat + (v.getLsbD 5).toNat + (v.getLsbD 6).toNat + (v.getLsbD 7).toNat

/-- `parity(v)` (R17): whether the number of 1 bits is even. -/
def parity (v : Byte) : Bool := onesCount v % 2 == 0

/-- `SZP(v)` (R17). -/
def withSZP (f : Byte) (v : Byte) : Byte :=
  setBit (setBit (setBit f 7 (v.getLsbD 7)) 6 (v == 0x00#8)) 2 (parity v)

/-! ### Addition and subtraction (R18, R19) -/

/-- What `Add8` and `Sub8` return: the result, the carry or borrow, the auxiliary carry. -/
structure AluOut where
  res : Byte
  cy : Bool
  ac : Bool
  deriving DecidableEq, Repr

/-- `Add8(a, b, c)` (R18). -/
def add8 (x y : Byte) (c : Bool) : AluOut where
  res := BitVec.ofNat 8 (x.toNat + y.toNat + c.toNat)
  cy := decide (x.toNat + y.toNat + c.toNat > 0xFF)
  ac := decide (x.toNat % 16 + y.toNat % 16 + c.toNat > 0xF)

/-- `Sub8(a, b, c)` (R19), with `AC_SUB_MODE`. -/
def sub8 (mode : AcSubMode) (x y : Byte) (c : Bool) : AluOut where
  res := BitVec.ofInt 8 ((x.toNat : Int) - y.toNat - c.toNat)
  cy := decide ((x.toNat : Int) - y.toNat - c.toNat < 0)
  ac :=
    match mode with
    | .halfBorrow => decide (x.toNat % 16 < y.toNat % 16 + c.toNat)
    | .notHalfBorrow => !decide (x.toNat % 16 < y.toNat % 16 + c.toNat)

/-! ### Flag groups of the instructions -/

/-- `CY <- cy; AC <- ac; SZP(res)`: the flags of addition, subtraction and compare (R180 to R191, R233 to R235). -/
def setFlags (s : State) (x : AluOut) : State :=
  { s with flag := withSZP (withAC (withCY s.flag x.cy) x.ac) x.res }

/-- `A <- res` with those flags (R180 to R191, R220 to R228). -/
def setAccumulator (s : State) (x : AluOut) : State :=
  { setFlags s x with a := x.res }

/-- `AC <- ac; SZP(res)`, CY kept: the flags of INR and DCR (R192 to R195). -/
def setFlagsKeepCY (s : State) (x : AluOut) : State :=
  { s with flag := withSZP (withAC s.flag x.ac) x.res }

/-- The result of a logical instruction: CY is 0, AC is `ac` (R220 to R228). -/
def logicOut (res : Byte) (ac : Bool) : AluOut where
  res := res
  cy := false
  ac := ac

/-- `A <- v; CY <- cy` and no other flag: the rotates (R229 to R232). -/
def setRotate (s : State) (v : Byte) (cy : Bool) : State :=
  { s with a := v, flag := withCY s.flag cy }

/-- `cond(ccc)` (R21). -/
def condHolds (s : State) : Cond → Bool
  | .nz => !flagZ s.flag
  | .z => flagZ s.flag
  | .nc => !flagCY s.flag
  | .c => flagCY s.flag
  | .po => !flagP s.flag
  | .pe => flagP s.flag
  | .p => !flagS s.flag
  | .m => flagS s.flag

end Sys2Proof.Machine
end

