-- ==== Sys2Proof/Machine/Arithmetic.lean ====
section
/-! DEFINITION. The arithmetic instructions (41_arithmetic.md R180 to R201). The carry or borrow taken in is CY as the instruction starts. -/

namespace Sys2Proof.Machine

/-- `r <- res; AC <- ac; SZP(res)`, CY kept: the end of INR and DCR (R192 to R195). -/
def stepOperand (s : State) (r : Operand8) (x : AluOut) : State :=
  setFlagsKeepCY (writeOperand s r x.res) x

/-- `s <- HL + v; HL <- s mod 65536; CY <- (s > 0xFFFF)`, no other flag (R196). -/
def addToHL (s : State) (v : Word) : State :=
  { writePair s .h (regHL s + v) with
    flag := withCY s.flag (decide ((regHL s).toNat + v.toNat > 0xFFFF)) }

/-- ADD: R180, R181. -/
def execAdd (r : Operand8) (s : State) : Result :=
  sequential (.add r) s (.ok (setAccumulator s (add8 s.a (readOperand s r) false)))

/-- ADC: R183, R184. -/
def execAdc (r : Operand8) (s : State) : Result :=
  sequential (.adc r) s (.ok (setAccumulator s (add8 s.a (readOperand s r) (flagCY s.flag))))

/-- ADI: R182. -/
def execAdi (d8 : Byte) (s : State) : Result :=
  sequential (.adi d8) s (.ok (setAccumulator s (add8 s.a d8 false)))

/-- ACI: R185. -/
def execAci (d8 : Byte) (s : State) : Result :=
  sequential (.aci d8) s (.ok (setAccumulator s (add8 s.a d8 (flagCY s.flag))))

/-- SUB: R186, R187. -/
def execSub (r : Operand8) (s : State) : Result :=
  sequential (.sub r) s (.ok (setAccumulator s (sub8 s.cfg.acSubMode s.a (readOperand s r) false)))

/-- SBB: R189, R190. -/
def execSbb (r : Operand8) (s : State) : Result :=
  sequential (.sbb r) s (.ok (setAccumulator s (sub8 s.cfg.acSubMode s.a (readOperand s r) (flagCY s.flag))))

/-- SUI: R188. -/
def execSui (d8 : Byte) (s : State) : Result :=
  sequential (.sui d8) s (.ok (setAccumulator s (sub8 s.cfg.acSubMode s.a d8 false)))

/-- SBI: R191. -/
def execSbi (d8 : Byte) (s : State) : Result :=
  sequential (.sbi d8) s (.ok (setAccumulator s (sub8 s.cfg.acSubMode s.a d8 (flagCY s.flag))))

/-- INR: R192, R193. -/
def execInr (r : Operand8) (s : State) : Result :=
  sequential (.inr r) s (.ok (stepOperand s r (add8 (readOperand s r) 0x01#8 false)))

/-- DCR: R194, R195. -/
def execDcr (r : Operand8) (s : State) : Result :=
  sequential (.dcr r) s (.ok (stepOperand s r (sub8 s.cfg.acSubMode (readOperand s r) 0x01#8 false)))

/-- DAD: R196. -/
def execDad (rp : Pair) (s : State) : Result :=
  sequential (.dad rp) s (.ok (addToHL s (readPair s rp)))

/-- INX: a pair (R197) or SP (R198). -/
def execInx (rp : Pair) (s : State) : Result :=
  sequential (.inx rp) s (stepPair s rp 1)

/-- DCX: a pair (R199) or SP (R200). -/
def execDcx (rp : Pair) (s : State) : Result :=
  sequential (.dcx rp) s (stepPair s rp (-1))

end Sys2Proof.Machine
end

