-- ==== Sys2Proof/Machine/Control.lean ====
section
/-! DEFINITION. Control transfer and halt (43_control.md R260 to R270). No instruction here writes a flag. -/

namespace Sys2Proof.Machine

/-- `if cond(ccc) then pc <- imm16 else PC <- V16(PC, PC + 3)` (R261). -/
def jumpIf (s : State) (cc : Cond) (target : Word) : Except Raise State :=
  if condHolds s cc then .ok { s with pc := target } else advance 3 s

/-- `ret <- V16(PC, PC + n); Push16(ret); pc <- target`, for an instruction of `n` bytes (R263, R267). -/
def callTo (s : State) (n : Nat) (target : Word) : Except Raise State := do
  let ret ← pcAfter s n
  let t ← push16 s ret
  .ok { t with pc := target }

/-- The call of R263 when the condition holds, and otherwise the PC advance (R264). -/
def callIf (s : State) (cc : Cond) (target : Word) : Except Raise State :=
  if condHolds s cc then callTo s 3 target else advance 3 s

/-- `pc <- Pop16()` (R265). -/
def returnFrom (s : State) : Except Raise State := do
  let (v, t) ← pop16 s
  .ok { t with pc := v }

/-- `if cond(ccc) then pc <- Pop16() else PC <- V16(PC, PC + 1)` (R266). -/
def returnIf (s : State) (cc : Cond) : Except Raise State :=
  if condHolds s cc then returnFrom s else advance 1 s

/-- `n * 8`, the target of RST n (R107, R267). -/
def restartTarget (n : BitVec 3) : Word := BitVec.ofNat 16 (n.toNat * 8)

/-- `if RST_PUSHES then ( ret <- V16(PC, PC + 1); Push16(ret) ); pc <- n * 8` (R267). -/
def restart (s : State) (n : BitVec 3) : Except Raise State :=
  if s.cfg.rstPushes then callTo s 1 (restartTarget n) else .ok { s with pc := restartTarget n }

/-- JMP: `pc <- imm16` (R260). -/
def execJmp (a16 : Word) (s : State) : Result :=
  transfer (.jmp a16) s (.ok { s with pc := a16 })

/-- JNZ: R261. -/
def execJnz (a16 : Word) (s : State) : Result :=
  transfer (.jnz a16) s (jumpIf s .nz a16)

/-- JZ: R261. -/
def execJz (a16 : Word) (s : State) : Result :=
  transfer (.jz a16) s (jumpIf s .z a16)

/-- JNC: R261. -/
def execJnc (a16 : Word) (s : State) : Result :=
  transfer (.jnc a16) s (jumpIf s .nc a16)

/-- JC: R261. -/
def execJc (a16 : Word) (s : State) : Result :=
  transfer (.jc a16) s (jumpIf s .c a16)

/-- JPO: R261. -/
def execJpo (a16 : Word) (s : State) : Result :=
  transfer (.jpo a16) s (jumpIf s .po a16)

/-- JPE: R261. -/
def execJpe (a16 : Word) (s : State) : Result :=
  transfer (.jpe a16) s (jumpIf s .pe a16)

/-- JP: R261. -/
def execJp (a16 : Word) (s : State) : Result :=
  transfer (.jp a16) s (jumpIf s .p a16)

/-- JM: R261. -/
def execJm (a16 : Word) (s : State) : Result :=
  transfer (.jm a16) s (jumpIf s .m a16)

/-- PCHL: `pc <- concat(H, L)` (R262). -/
def execPchl (s : State) : Result :=
  transfer .pchl s (.ok { s with pc := regHL s })

/-- CALL: R263. -/
def execCall (a16 : Word) (s : State) : Result :=
  transfer (.call a16) s (callTo s 3 a16)

/-- CNZ: R264. -/
def execCnz (a16 : Word) (s : State) : Result :=
  transfer (.cnz a16) s (callIf s .nz a16)

/-- CZ: R264. -/
def execCz (a16 : Word) (s : State) : Result :=
  transfer (.cz a16) s (callIf s .z a16)

/-- CNC: R264. -/
def execCnc (a16 : Word) (s : State) : Result :=
  transfer (.cnc a16) s (callIf s .nc a16)

/-- CC: R264. -/
def execCc (a16 : Word) (s : State) : Result :=
  transfer (.cc a16) s (callIf s .c a16)

/-- CPO: R264. -/
def execCpo (a16 : Word) (s : State) : Result :=
  transfer (.cpo a16) s (callIf s .po a16)

/-- CPE: R264. -/
def execCpe (a16 : Word) (s : State) : Result :=
  transfer (.cpe a16) s (callIf s .pe a16)

/-- CP: R264. -/
def execCp (a16 : Word) (s : State) : Result :=
  transfer (.cp a16) s (callIf s .p a16)

/-- CM: R264. -/
def execCm (a16 : Word) (s : State) : Result :=
  transfer (.cm a16) s (callIf s .m a16)

/-- RET: R265. -/
def execRet (s : State) : Result :=
  transfer .ret s (returnFrom s)

/-- RNZ: R266. -/
def execRnz (s : State) : Result :=
  transfer .rnz s (returnIf s .nz)

/-- RZ: R266. -/
def execRz (s : State) : Result :=
  transfer .rz s (returnIf s .z)

/-- RNC: R266. -/
def execRnc (s : State) : Result :=
  transfer .rnc s (returnIf s .nc)

/-- RC: R266. -/
def execRc (s : State) : Result :=
  transfer .rc s (returnIf s .c)

/-- RPO: R266. -/
def execRpo (s : State) : Result :=
  transfer .rpo s (returnIf s .po)

/-- RPE: R266. -/
def execRpe (s : State) : Result :=
  transfer .rpe s (returnIf s .pe)

/-- RP: R266. -/
def execRp (s : State) : Result :=
  transfer .rp s (returnIf s .p)

/-- RM: R266. -/
def execRm (s : State) : Result :=
  transfer .rm s (returnIf s .m)

/-- RST: R267. -/
def execRst (n : BitVec 3) (s : State) : Result :=
  transfer (.rst n) s (restart s n)

/-- HLT: `isHalted <- true`, then the PC advance (R269). -/
def execHlt (s : State) : Result :=
  sequential .hlt s (.ok { s with isHalted := true })

end Sys2Proof.Machine
end

