-- ==== Sys2Proof/Machine/DataTransfer.lean ====
section
/-! DEFINITION. The data transfer and stack instructions (40_data_transfer.md R140 to R159). None writes a flag but POP PSW. -/

namespace Sys2Proof.Machine

/-- MOV: `r(ddd) <- r(sss)`, either of which may be M, not both (40_data_transfer.md R140, R141, R142). -/
def execMov (dst : Operand8) (src : Operand8) (s : State) : Result :=
  sequential (.mov dst src) s (.ok (writeOperand s dst (readOperand s src)))

/-- MVI: `r(ddd) <- imm8` (R143), or the byte at HL (R144). -/
def execMvi (r : Operand8) (d8 : Byte) (s : State) : Result :=
  sequential (.mvi r d8) s (.ok (writeOperand s r d8))

/-- LXI: a pair (R145) or SP (R146) gets the immediate. -/
def execLxi (rp : Pair) (d16 : Word) (s : State) : Result :=
  sequential (.lxi rp d16) s (.ok (writePair s rp d16))

/-- LDA: `A <- MemRead(imm16, 1)` (R147). -/
def execLda (a16 : Word) (s : State) : Result :=
  sequential (.lda a16) s (.ok { s with a := memRead s a16 })

/-- STA: `MemWrite(imm16, 1, A)` (R148). -/
def execSta (a16 : Word) (s : State) : Result :=
  sequential (.sta a16) s (.ok (memWrite s a16 s.a))

/-- LHLD: `v <- Read16(imm16); H <- hi(v); L <- lo(v)` (R149). -/
def execLhld (a16 : Word) (s : State) : Result :=
  sequential (.lhld a16) s (do
    let v ← read16 s a16.toNat
    .ok (writePair s .h v))

/-- SHLD: `Write16(imm16, concat(H, L))` (R150). -/
def execShld (a16 : Word) (s : State) : Result :=
  sequential (.shld a16) s (write16 s a16.toNat (regHL s))

/-- LDAX: A gets the byte at BC or DE (R151). -/
def execLdax (rp : IndexPair) (s : State) : Result :=
  sequential (.ldax rp) s (.ok { s with a := memRead s (readIndex s rp) })

/-- STAX: A is stored at BC or DE (R152). -/
def execStax (rp : IndexPair) (s : State) : Result :=
  sequential (.stax rp) s (.ok (memWrite s (readIndex s rp) s.a))

/-- XCHG: HL and DE change places (R153). -/
def execXchg (s : State) : Result :=
  sequential .xchg s (.ok { s with h := s.d, l := s.e, d := s.h, e := s.l })

/-- SPHL: `SP <- concat(H, L)` (R154). -/
def execSphl (s : State) : Result :=
  sequential .sphl s (.ok { s with sp := regHL s })

/-- XTHL: HL and the word at SP change places, SP unchanged (R155). -/
def execXthl (s : State) : Result :=
  sequential .xthl s (do
    let v ← read16 s s.sp.toNat
    let t ← write16 s s.sp.toNat (regHL s)
    .ok (writePair t .h v))

/-- PUSH: a pair (R156), or A and FLAG (R157). -/
def execPush (rp : StackPair) (s : State) : Result :=
  sequential (.push rp) s (push16 s (readStackPair s rp))

/-- POP: a pair (R158), or A and all eight bits of FLAG (R159). -/
def execPop (rp : StackPair) (s : State) : Result :=
  sequential (.pop rp) s (do
    let (v, t) ← pop16 s
    .ok (writeStackPair t rp v))

end Sys2Proof.Machine
end

