-- ==== Sys2Proof/Machine/Logical.lean ====
section
/-! DEFINITION. The logical, rotate, compare and flag instructions (42_logical.md R220 to R238). -/

namespace Sys2Proof.Machine

/-- A bit as a byte. -/
def bitByte (x : Bool) : Byte := if x then 0x01#8 else 0x00#8

/-- ANA: R220, R221. -/
def execAna (r : Operand8) (s : State) : Result :=
  sequential (.ana r) s (.ok (setAccumulator s (logicOut (s.a &&& readOperand s r) true)))

/-- XRA: R223, R224. -/
def execXra (r : Operand8) (s : State) : Result :=
  sequential (.xra r) s (.ok (setAccumulator s (logicOut (s.a ^^^ readOperand s r) false)))

/-- ORA: R226, R227. -/
def execOra (r : Operand8) (s : State) : Result :=
  sequential (.ora r) s (.ok (setAccumulator s (logicOut (s.a ||| readOperand s r) false)))

/-- ANI: R222. -/
def execAni (d8 : Byte) (s : State) : Result :=
  sequential (.ani d8) s (.ok (setAccumulator s (logicOut (s.a &&& d8) true)))

/-- XRI: R225. -/
def execXri (d8 : Byte) (s : State) : Result :=
  sequential (.xri d8) s (.ok (setAccumulator s (logicOut (s.a ^^^ d8) false)))

/-- ORI: R228. -/
def execOri (d8 : Byte) (s : State) : Result :=
  sequential (.ori d8) s (.ok (setAccumulator s (logicOut (s.a ||| d8) false)))

/-- RLC: R229. -/
def execRlc (s : State) : Result :=
  sequential .rlc s (.ok (setRotate s (s.a <<< 1 ||| bitByte (s.a.getLsbD 7)) (s.a.getLsbD 7)))

/-- RRC: R230. -/
def execRrc (s : State) : Result :=
  sequential .rrc s (.ok (setRotate s (s.a >>> 1 ||| bitByte (s.a.getLsbD 0) <<< 7) (s.a.getLsbD 0)))

/-- RAL: the CY shifted in is the one before the instruction (R231). -/
def execRal (s : State) : Result :=
  sequential .ral s (.ok (setRotate s (s.a <<< 1 ||| bitByte (flagCY s.flag)) (s.a.getLsbD 7)))

/-- RAR: R232. -/
def execRar (s : State) : Result :=
  sequential .rar s (.ok (setRotate s (s.a >>> 1 ||| bitByte (flagCY s.flag) <<< 7) (s.a.getLsbD 0)))

/-- CMP: the flags of A - r, A unchanged (R233, R234). -/
def execCmp (r : Operand8) (s : State) : Result :=
  sequential (.cmp r) s (.ok (setFlags s (sub8 s.cfg.acSubMode s.a (readOperand s r) false)))

/-- CPI: R235. -/
def execCpi (d8 : Byte) (s : State) : Result :=
  sequential (.cpi d8) s (.ok (setFlags s (sub8 s.cfg.acSubMode s.a d8 false)))

/-- CMA: `A <- (~A) & 0xFF`, no flag (R236). -/
def execCma (s : State) : Result :=
  sequential .cma s (.ok { s with a := ~~~s.a })

/-- CMC: `CY <- 1 - CY` (R237). -/
def execCmc (s : State) : Result :=
  sequential .cmc s (.ok { s with flag := withCY s.flag (!flagCY s.flag) })

/-- STC: `CY <- 1` (R238). -/
def execStc (s : State) : Result :=
  sequential .stc s (.ok { s with flag := withCY s.flag true })

end Sys2Proof.Machine
end

