-- ==== Sys2Proof/Machine/Unlisted.lean ====
section
/-! DEFINITION. The instructions the source document leaves unimplemented or does not name (44_unlisted_and_unimplemented.md R290 to R297), and the undefined bytes (30_encoding.md R112). -/

namespace Sys2Proof.Machine

/-- The correction of DAA and whether it carries: `corr` and `cy` of R290, `DAA_MODE = Datasheet`. -/
def decimalCorrection (v : Byte) (cy ac : Bool) : Nat × Bool :=
  let low := if v.toNat % 16 > 9 || ac then 0x06 else 0x00
  if v.toNat > 0x99 || cy then (low + 0x60, true) else (low, cy)

/-- A, CY and AC after DAA (R290, `DAA_MODE = Datasheet`). -/
def decimalAdjust (s : State) : AluOut :=
  let corr := decimalCorrection s.a (flagCY s.flag) (flagAC s.flag)
  { res := BitVec.ofNat 8 (s.a.toNat + corr.1)
    cy := corr.2
    ac := decide (s.a.toNat % 16 + corr.1 % 16 > 0x0F) }

/-- DAA: `NotImplemented`, or the decimal adjustment, by `DAA_MODE` (R290). -/
def execDaa (s : State) : Result :=
  sequential .daa s (match s.cfg.daaMode with
    | .fault => .error .notImplemented
    | .datasheet => .ok (setAccumulator s (decimalAdjust s)))

/-- IN: `NotImplemented`, or `A <- PortRead(imm8)`, by `IO_MODE` (R291). -/
def execInp (d8 : Byte) (s : State) : Result :=
  sequential (.inp d8) s (match s.cfg.ioMode with
    | .fault => .error .notImplemented
    | .datasheet => .ok { s with a := portRead s d8 })

/-- OUT: `NotImplemented`, or `PortWrite(imm8, A)`, by `IO_MODE` (R292). -/
def execOut (d8 : Byte) (s : State) : Result :=
  sequential (.out d8) s (match s.cfg.ioMode with
    | .fault => .error .notImplemented
    | .datasheet => .ok (portWrite s d8 s.a))

/-- NOP: only the PC advance (R293). -/
def execNop (s : State) : Result :=
  sequential .nop s (.ok s)

/-- EI: `raise NotImplemented(PC, opcode)`, its whole effect (R294). -/
def execEi (s : State) : Result :=
  transfer .ei s (.error .notImplemented)

/-- DI: `raise NotImplemented(PC, opcode)`, its whole effect (R295). -/
def execDi (s : State) : Result :=
  transfer .di s (.error .notImplemented)

/-- RIM: `raise NotImplemented(PC, opcode)`, its whole effect (R296). -/
def execRim (s : State) : Result :=
  transfer .rim s (.error .notImplemented)

/-- SIM: `raise NotImplemented(PC, opcode)`, its whole effect (R297). -/
def execSim (s : State) : Result :=
  transfer .sim s (.error .notImplemented)

/-- An undefined byte: `raise UnknownOpcode(pc, opcode)`, its whole effect (30_encoding.md R112, 60_exceptions.md R311). -/
def execUndefined (op : Byte) (s : State) : Result :=
  transfer (.undefined op) s (.error .unknownOpcode)

end Sys2Proof.Machine
end

