-- ==== Sys2Proof/Machine/Fetch.lean ====
section
/-! DEFINITION. The instruction fetch (00_scope.md R13, 60_exceptions.md R318 (2) to (4)). -/

namespace Sys2Proof.Machine

/-- `Fetch8(k) = MemRead(A16(PC + k), 1)` (R13). -/
def fetch8 (s : State) (k : Nat) : Except Raise Byte := do
  let x ← a16 s.cfg (s.pc.toNat + k)
  .ok (memRead s x)

/-- The opcode byte, `Fetch8(0)`; PC is in range, so this cannot fault (R318 (2)). -/
def fetchOpcode (s : State) : Byte := memRead s s.pc

/-- The instruction at PC: all of its operand bytes are fetched, PC+1 before PC+2, before it executes (R86, R318 (4)); an undefined byte has none (R311). -/
def fetch (s : State) : Except Raise Instr :=
  match patternOf (fetchOpcode s) with
  | .i1 i => .ok i
  | .i2 f => do
    let b1 ← fetch8 s 1
    .ok (f b1)
  | .i3 f => do
    let b1 ← fetch8 s 1
    let b2 ← fetch8 s 2
    .ok (f (concat b1 b2))

/-- Stores bytes from an address on. -/
def storeBytes (s : State) (addr : Word) : List Byte → State
  | [] => s
  | v :: rest => storeBytes (memWrite s addr v) (addr + 1) rest

end Sys2Proof.Machine
end

