-- ==== Sys2Proof/Machine/Step.lean ====
section
/-! DEFINITION. One step of the engine (70_reset_and_hazards.md R354). -/

namespace Sys2Proof.Machine

/-- `step()` (R354), with the checks in the order of 60_exceptions.md R318: a latched fault is returned again and nothing executes (R316); a fault of the operand fetch is taken; otherwise exactly the instruction at PC executes. It does not read `isHalted` (R51). A step that meets a fault answers the state with the latch written (log entry 2). -/
def step (s : State) : Host.Outcome State Fault Refusal :=
  match s.fault with
  | some r => .fault (.latched r)
  | none =>
    match fetch s with
    | .error f => .next (takeFault s (fetchOpcode s) f)
    | .ok i => exec i s

/-- `s` with an instruction of the opcode table stored where `step` fetches next, at PC. On this engine a program is stored by the host (`loadProgram` or `setMem`), for which this stands (log entry 4). -/
def State.withFetchWord (s : State) (nbits w : Nat) : State := storeBytes s s.pc (tableBytes nbits w)

end Sys2Proof.Machine
end

