-- ==== Sys2Proof/Machine/HostOps.lean ====
section
/-! DEFINITION. The host operations (70_reset_and_hazards.md R350 to R367) and their errors (60_exceptions.md R330). They act between steps (20_memory.md R88). -/

namespace Sys2Proof.Machine

/-- The host-operation errors (R330). Such an error changes no state and does not set the fault latch. -/
inductive HostError where
  | hostAddressOutOfBounds
  | hostValueOutOfRange
  | hostUnknownRegister
  | hostFlagIndexOutOfRange
  | hostProgramTooLarge
  deriving DecidableEq, Repr

/-! ### Reset and loading (R350 to R353) -/

/-- `reset()` (R350): every component gets its reset value; the configuration is not state and stays. -/
def hostReset (s : State) : State := { State.reset with cfg := s.cfg }

/-- Writes `bytes[0], bytes[1], ...` at `x, x + 1, ...`, each masked to 8 bits. -/
def loadFrom (m : Memory) (x : Nat) : List Nat → Memory
  | [] => m
  | v :: rest => loadFrom (Memory.write m x (BitVec.ofNat 8 v)) (x + 1) rest

/-- `loadProgram(bytes)` (R353). -/
def hostLoadProgram (s : State) (bytes : List Nat) : Except HostError State :=
  if bytes.length > memorySize then .error .hostProgramTooLarge
  else .ok { s with mem := loadFrom s.mem 0 bytes }

/-! ### Memory cells and ports (R356, R358) -/

/-- `getMem(a)` (R356). -/
def hostGetMem (s : State) (x : Int) : Except HostError Byte :=
  if 0 ≤ x ∧ x ≤ 0xFFFF then .ok (Memory.read s.mem x.toNat) else .error .hostAddressOutOfBounds

/-- `setMem(a, v)` (R356): the value is masked. -/
def hostSetMem (s : State) (x v : Int) : Except HostError State :=
  if 0 ≤ x ∧ x ≤ 0xFFFF then .ok { s with mem := Memory.write s.mem x.toNat (BitVec.ofInt 8 v) }
  else .error .hostAddressOutOfBounds

/-- `getPort(p)` (R358). -/
def hostGetPort (s : State) (p : Int) : Except HostError Byte :=
  if 0 ≤ p ∧ p ≤ 0xFF then .ok (Memory.read s.port p.toNat) else .error .hostAddressOutOfBounds

/-- `setPort(p, v)` (R358): the port number is checked, then the value, which is not masked. -/
def hostSetPort (s : State) (p v : Int) : Except HostError State :=
  if 0 ≤ p ∧ p ≤ 0xFF then
    if 0 ≤ v ∧ v ≤ 0xFF then .ok { s with port := Memory.write s.port p.toNat (BitVec.ofInt 8 v) }
    else .error .hostValueOutOfRange
  else .error .hostAddressOutOfBounds

/-! ### Registers and flag bits (R357, R359) -/

/-- The register names of R357. -/
inductive RegName where
  | a | b | c | d | e | h | l | sp | pc | flag
  deriving DecidableEq, Repr

/-- The register a name names; any other name names none (R357). -/
def regNamed (name : String) : Option RegName :=
  if name = "A" then some .a
  else if name = "B" then some .b
  else if name = "C" then some .c
  else if name = "D" then some .d
  else if name = "E" then some .e
  else if name = "H" then some .h
  else if name = "L" then some .l
  else if name = "SP" then some .sp
  else if name = "PC" then some .pc
  else if name = "FLAG" then some .flag
  else none

/-- The value of a register, as an unsigned integer (00_scope.md R8). -/
def regValue (s : State) : RegName → Nat
  | .a => s.a.toNat
  | .b => s.b.toNat
  | .c => s.c.toNat
  | .d => s.d.toNat
  | .e => s.e.toNat
  | .h => s.h.toNat
  | .l => s.l.toNat
  | .sp => s.sp.toNat
  | .pc => s.pc.toNat
  | .flag => s.flag.toNat

/-- `getReg(R)` (R357). -/
def hostGetReg (s : State) (name : String) : Except HostError Nat :=
  match regNamed name with
  | none => .error .hostUnknownRegister
  | some r => .ok (regValue s r)

/-- A 16-bit register value from the host: in range, or an error (R357). -/
def hostWord (v : Int) : Except HostError Word :=
  if 0 ≤ v ∧ v ≤ 0xFFFF then .ok (BitVec.ofInt 16 v) else .error .hostValueOutOfRange

/-- `R <- v` of a register (R357): the 8-bit registers mask, SP and PC check. -/
def setRegister (s : State) (r : RegName) (v : Int) : Except HostError State :=
  match r with
  | .a => .ok { s with a := BitVec.ofInt 8 v }
  | .b => .ok { s with b := BitVec.ofInt 8 v }
  | .c => .ok { s with c := BitVec.ofInt 8 v }
  | .d => .ok { s with d := BitVec.ofInt 8 v }
  | .e => .ok { s with e := BitVec.ofInt 8 v }
  | .h => .ok { s with h := BitVec.ofInt 8 v }
  | .l => .ok { s with l := BitVec.ofInt 8 v }
  | .flag => .ok { s with flag := BitVec.ofInt 8 v }
  | .sp => do
    let x ← hostWord v
    .ok { s with sp := x }
  | .pc => do
    let x ← hostWord v
    .ok { s with pc := x }

/-- `setReg(R, v)` (R357). -/
def hostSetReg (s : State) (name : String) (v : Int) : Except HostError State :=
  match regNamed name with
  | none => .error .hostUnknownRegister
  | some r => setRegister s r v

/-- `getFlag(i)` (R359). -/
def hostGetFlag (s : State) (i : Int) : Except HostError Bool :=
  if 0 ≤ i ∧ i ≤ 7 then .ok (s.flag.getLsbD i.toNat) else .error .hostFlagIndexOutOfRange

/-- `setFlag(i, x)` (R359): the index is checked, then the value. -/
def hostSetFlag (s : State) (i x : Int) : Except HostError State :=
  if 0 ≤ i ∧ i ≤ 7 then
    if x = 0 ∨ x = 1 then .ok { s with flag := setBit s.flag i.toNat (decide (x = 1)) }
    else .error .hostValueOutOfRange
  else .error .hostFlagIndexOutOfRange

/-! ### step and run (R317, R354, R355, R367) -/

/-- What a `step()` call returns (R354); `refused` stands for a meaning the model lacks, which never happens. -/
inductive StepReport where
  | ok
  | fault (r : FaultRecord)
  | refused (r : Refusal)
  deriving DecidableEq, Repr

/-- A `step()` call: its result and the state after it. A fault is reported to the host as the result of the call that met it (R317), and a latched one is returned again and changes nothing (R316). -/
def hostStep (s : State) : StepReport × State :=
  match step s with
  | .next t =>
    match t.fault with
    | none => (.ok, t)
    | some r => (.fault r, t)
  | .fault (.latched r) => (.fault r, s)
  | .refused r => (.refused r, s)

/-- What a `run()` or `runFor(n)` call returns (R360, R367). -/
inductive RunReport where
  | halted
  | fault (r : FaultRecord)
  | outOfSteps
  | refused (r : Refusal)
  deriving DecidableEq, Repr

/-- The loop of R355, for at most `n` calls of `step()` (R367). -/
def runLoop : Nat → State → RunReport × State
  | 0, s => (.outOfSteps, s)
  | n + 1, s =>
    match hostStep s with
    | (.fault r, t) => (.fault r, t)
    | (.refused r, t) => (.refused r, t)
    | (.ok, t) => if t.isHalted then (.halted, t) else runLoop n t

/-- The two writes of `run()` itself (R355). -/
def runStart (s : State) : State := { s with isHalted := false, pc := 0x0000#16 }

/-- `runFor(n)` (R367). -/
def runFor (n : Nat) (s : State) : RunReport × State :=
  match s.fault with
  | some r => (.fault r, s)
  | none => runLoop n (runStart s)

/-- The loop of R355 from `s` ends with a report and a state; when it never ends there are none. -/
inductive LoopEnds : State → RunReport → State → Prop where
  | fault {s t : State} {r : FaultRecord} (h : hostStep s = (.fault r, t)) : LoopEnds s (.fault r) t
  | halted {s t : State} (h : hostStep s = (.ok, t)) (hh : t.isHalted = true) : LoopEnds s .halted t
  | again {s t u : State} {r : RunReport} (h : hostStep s = (.ok, t)) (hh : t.isHalted = false)
      (rest : LoopEnds t r u) : LoopEnds s r u

/-- `run()` from `s` returns the report `r` in the state `t` (R355). -/
def RunEnds (s : State) (r : RunReport) (t : State) : Prop :=
  match s.fault with
  | some f => r = .fault f ∧ t = s
  | none => LoopEnds (runStart s) r t

end Sys2Proof.Machine
end

