-- ==== Sys2Proof/Safety.lean ====
section
/-! DEFINITION. The terms in which claims about runs are stated: what a safe state is, the invariant, when an instruction's bytes and its PC advance fit below 0x10000, and FLAG written out bit by bit. -/

namespace Sys2Proof.Machine

/-- A state with no fault latched; a run is safe when all its states are (60_exceptions.md R310, R316). -/
abbrev Safe (s : State) : Prop := s.fault = none

/-- A fault record whose code is its kind's code and whose info is the one its kind records (R310). -/
def FaultRecord.consistent (r : FaultRecord) : Bool :=
  match r.kind, r.info with
  | .unknownOpcode, .none => r.code == 1
  | .notImplemented, .none => r.code == 2
  | .addressOutOfBounds, .address x => r.code == 3 && (decide (x < 0) || decide (0xFFFF < x))
  | .registerOutOfRange, .register _ x => r.code == 4 && (decide (x < 0) || decide (0xFFFF < x))
  | _, _ => false

/-- Whether the fault latch is empty or holds a consistent record. -/
def latchConsistent (s : State) : Bool :=
  match s.fault with
  | none => true
  | some r => r.consistent

/-- The invariant of the engine: memory and ports are in their canonical form, within their sizes and with no entry of the unlisted value (10_state.md R53, R54), and a latched record is one that R310 describes. -/
abbrev StateInv (s : State) : Prop :=
  Memory.wf memorySize s.mem = true ∧ Memory.wf portCount s.port = true ∧ latchConsistent s = true

/-- PC + n is a value PC can take, or values wrap: the condition under which `V16(PC, PC + n)` does not raise (00_scope.md R11, R22). -/
abbrev CanAdvance (s : State) (n : Nat) : Prop := s.cfg.wrap16 = .wrap ∨ s.pc.toNat + n ≤ 0xFFFF

/-- All `n` bytes from PC on have an address, or addresses wrap: the condition under which the fetch of an instruction of `n` bytes does not raise (R10, R13). -/
abbrev CanFetch (s : State) (n : Nat) : Prop := s.cfg.wrap16 = .wrap ∨ s.pc.toNat + n ≤ 0x10000

/-- The data word at `x` has both of its bytes, or addresses wrap (R10, R14). -/
abbrev WordFits (s : State) (x : Word) : Prop := s.cfg.wrap16 = .wrap ∨ x.toNat ≤ 0xFFFE

/-- A push has room below SP, or values wrap (R15). -/
abbrev CanPush (s : State) : Prop := s.cfg.wrap16 = .wrap ∨ 2 ≤ s.sp.toNat

/-- A pop has its word and leaves an SP in range, or values wrap (R15). -/
abbrev CanPop (s : State) : Prop := s.cfg.wrap16 = .wrap ∨ s.sp.toNat ≤ 0xFFFD

/-- The state after a step from `s` that only raised: the fault latch written, everything else as before (R315), with the record R310 gives. -/
def latched (s : State) (kind : FaultKind) (code : Nat) (op : Byte) (info : FaultInfo) : State :=
  { s with fault := some { kind := kind, code := code, pc := s.pc, opcode := op, info := info } }

/-- FLAG laid out bit by bit (10_state.md R47), its reserved bits those of `old`. -/
def flagByte (old : Byte) (sgn z ac p cy : Bool) : Byte :=
  BitVec.ofBool sgn ++ BitVec.ofBool z ++ BitVec.ofBool (old.getLsbD 5) ++ BitVec.ofBool ac
    ++ BitVec.ofBool (old.getLsbD 3) ++ BitVec.ofBool p ++ BitVec.ofBool (old.getLsbD 1) ++ BitVec.ofBool cy

/-- Whether a byte has an even number of 1 bits (00_scope.md R17). -/
def evenOnes (v : Byte) : Bool := decide (((List.range 8).filter (fun k => v.getLsbD k)).length % 2 = 0)

/-- FLAG with CY set and every other bit as in `old` (R20). -/
def carryByte (old : Byte) (cy : Bool) : Byte :=
  flagByte old (old.getLsbD 7) (old.getLsbD 6) (old.getLsbD 4) (old.getLsbD 2) cy

/-- FLAG with the bit `cy` in 0 and in the other four places what a result of `n` (a byte) and `ac` give (R17, R20). -/
def resultByte (old : Byte) (n : Nat) (ac cy : Bool) : Byte :=
  flagByte old (decide (128 ≤ n)) (decide (n = 0)) ac (evenOnes (BitVec.ofNat 8 n)) cy

/-- AC of `x - y - b` (R19). -/
def borrowAC (cfg : Config) (x y : Byte) (b : Nat) : Bool :=
  if cfg.acSubMode = .halfBorrow then decide (x.toNat % 16 < y.toNat % 16 + b)
  else decide (y.toNat % 16 + b ≤ x.toNat % 16)

/-- `x - y - b` modulo 256, computed without leaving the naturals. -/
def differenceOf (x y : Byte) (b : Nat) : Nat := (x.toNat + 512 - y.toNat - b) % 256

/-- A state whose register `r` holds `v`, every other register as before; M is no register. -/
def assignReg (s : State) (r : Operand8) (v : Byte) : State :=
  { s with
    a := if r = .a then v else s.a
    b := if r = .b then v else s.b
    c := if r = .c then v else s.c
    d := if r = .d then v else s.d
    e := if r = .e then v else s.e
    h := if r = .h then v else s.h
    l := if r = .l then v else s.l }

/-- `t`'s memory is `s`'s with the byte `v` at `x`. -/
def StoresByte (s t : State) (x : Word) (v : Byte) : Prop :=
  ∀ y : Word, memRead t y = if y = x then v else memRead s y

/-- `t`'s memory is `s`'s with the data word of those two bytes at `x` and `x + 1`, in the configured order (R14, R74). -/
def StoresWord (s t : State) (x : Word) (high low : Byte) : Prop :=
  ∀ y : Word, memRead t y =
    if y = x then (if s.cfg.dataWordOrder = .highAtLower then high else low)
    else if y = x + 1 then (if s.cfg.dataWordOrder = .highAtLower then low else high)
    else memRead s y

/-- The high and the low byte of the data word at `x`, in the configured order (R14, R74). -/
def wordAt (s : State) (x : Word) : Byte × Byte :=
  if s.cfg.dataWordOrder = .highAtLower then (memRead s x, memRead s (x + 1))
  else (memRead s (x + 1), memRead s x)

/-- The register code as a number (30_encoding.md R103). -/
def codeOf : Operand8 → Nat
  | .b => 0
  | .c => 1
  | .d => 2
  | .e => 3
  | .h => 4
  | .l => 5
  | .m => 6
  | .a => 7

/-- The pair code as a number (R104). -/
def pairOf : Pair → Nat
  | .b => 0
  | .d => 1
  | .h => 2
  | .sp => 3

/-- The value of a pair operand as a number (10_state.md R43). -/
def pairValue (s : State) : Pair → Nat
  | .b => 256 * s.b.toNat + s.c.toNat
  | .d => 256 * s.d.toNat + s.e.toNat
  | .h => 256 * s.h.toNat + s.l.toNat
  | .sp => s.sp.toNat

/-- A state whose pair `rp` holds the number `n`, below 65536 (R43). -/
def assignPair (s : State) (rp : Pair) (n : Nat) : State :=
  match rp with
  | .b => { s with b := BitVec.ofNat 8 (n / 256), c := BitVec.ofNat 8 (n % 256) }
  | .d => { s with d := BitVec.ofNat 8 (n / 256), e := BitVec.ofNat 8 (n % 256) }
  | .h => { s with h := BitVec.ofNat 8 (n / 256), l := BitVec.ofNat 8 (n % 256) }
  | .sp => { s with sp := BitVec.ofNat 16 n }

/-- The high and the low register PUSH and POP name, and the code of the pair (R43, R44, R105). -/
def stackPairValue (s : State) : StackPair → Byte × Byte
  | .b => (s.b, s.c)
  | .d => (s.d, s.e)
  | .h => (s.h, s.l)
  | .psw => (s.a, s.flag)

/-- A state whose stack pair holds two bytes (R43, R44). -/
def assignStackPair (s : State) (rp : StackPair) (v : Byte × Byte) : State :=
  match rp with
  | .b => { s with b := v.1, c := v.2 }
  | .d => { s with d := v.1, e := v.2 }
  | .h => { s with h := v.1, l := v.2 }
  | .psw => { s with a := v.1, flag := v.2 }

/-- The stack pair code as a number (R105). -/
def stackPairOf : StackPair → Nat
  | .b => 0
  | .d => 1
  | .h => 2
  | .psw => 3

/-- The high byte of a 16-bit value, as the byte of an encoding. -/
def highOf (v : Word) : Byte := BitVec.ofNat 8 (v.toNat / 256)

/-- The low byte of a 16-bit value, as the byte of an encoding. -/
def lowOf (v : Word) : Byte := BitVec.ofNat 8 (v.toNat % 256)

/-! ### Faults of the fetch and of the stack -/

/-- An instruction of `len` bytes with this opcode byte whose operands reach past 0xFFFF takes `AddressOutOfBounds(0x10000)` when `WRAP16 = Fault` (60_exceptions.md R313). -/
def OperandFetchFaults (op : Byte) (len : Nat) : Prop :=
  ∀ s : State, s.fault = none → s.cfg.wrap16 = .fault → memRead s s.pc = op →
    0x10000 < s.pc.toNat + len →
    step s = .next (latched s .addressOutOfBounds 3 op (.address 0x10000))

/-- What the PC advance of an instruction of `len` bytes does past 0xFFFF when `WRAP16 = Fault`: the state `t` of the fault it takes (R314). -/
def pcFault (s : State) (op : Byte) (len : Nat) : State :=
  latched s .registerOutOfRange 4 op (.register .pc (s.pc.toNat + len))

/-- What a push below 0 does when `WRAP16 = Fault` (R313). -/
def pushFault (s : State) (op : Byte) : State :=
  latched s .addressOutOfBounds 3 op (.address ((s.sp.toNat : Int) - 2))

/-- An instruction of `len` bytes that calls `target`: the return address, then its push, then the jump, each fault in that order (43_control.md R263). -/
def CallsTo (i : Instr) (s : State) (op : Byte) (len : Nat) (target : Word) : Prop :=
  (s.cfg.wrap16 = .fault → 0xFFFF < s.pc.toNat + len → exec i s = .next (pcFault s op len))
  ∧ (s.cfg.wrap16 = .fault → s.pc.toNat + len ≤ 0xFFFF → s.sp.toNat < 2 →
      exec i s = .next (pushFault s op))
  ∧ (CanAdvance s len → CanPush s →
      ∃ t, exec i s = .next t ∧ t = { s with mem := t.mem, sp := s.sp - 2, pc := target }
        ∧ StoresWord s t (s.sp - 2) (highOf (s.pc + BitVec.ofNat 16 len))
            (lowOf (s.pc + BitVec.ofNat 16 len)))

/-- An instruction that returns: PC is the popped word (R265). -/
def ReturnsFrom (i : Instr) (s : State) (op : Byte) : Prop :=
  (CanPop s → exec i s = .next { s with
      sp := s.sp + 2
      pc := BitVec.ofNat 16 (256 * (wordAt s s.sp).1.toNat + (wordAt s s.sp).2.toNat) })
  ∧ (s.cfg.wrap16 = .fault → s.sp.toNat = 0xFFFF →
      exec i s = .next (latched s .addressOutOfBounds 3 op (.address 0x10000)))
  ∧ (s.cfg.wrap16 = .fault → s.sp.toNat = 0xFFFE →
      exec i s = .next (latched s .registerOutOfRange 4 op (.register .sp 0x10000)))

/-- The conditional jumps: opcode byte, instruction, the FLAG bit its condition names, and the value of it that jumps (00_scope.md R21, 43_control.md R261). -/
def conditionalJumps : List (Byte × (Word → Instr) × Nat × Bool) :=
  [(0xC2#8, .jnz, 6, false), (0xCA#8, .jz, 6, true), (0xD2#8, .jnc, 0, false), (0xDA#8, .jc, 0, true),
   (0xE2#8, .jpo, 2, false), (0xEA#8, .jpe, 2, true), (0xF2#8, .jp, 7, false), (0xFA#8, .jm, 7, true)]

/-- The conditional calls, in the same form (R21, R264). -/
def conditionalCalls : List (Byte × (Word → Instr) × Nat × Bool) :=
  [(0xC4#8, .cnz, 6, false), (0xCC#8, .cz, 6, true), (0xD4#8, .cnc, 0, false), (0xDC#8, .cc, 0, true),
   (0xE4#8, .cpo, 2, false), (0xEC#8, .cpe, 2, true), (0xF4#8, .cp, 7, false), (0xFC#8, .cm, 7, true)]

/-- The conditional returns, in the same form (R21, R266). -/
def conditionalReturns : List (Byte × Instr × Nat × Bool) :=
  [(0xC0#8, .rnz, 6, false), (0xC8#8, .rz, 6, true), (0xD0#8, .rnc, 0, false), (0xD8#8, .rc, 0, true),
   (0xE0#8, .rpo, 2, false), (0xE8#8, .rpe, 2, true), (0xF0#8, .rp, 7, false), (0xF8#8, .rm, 7, true)]

/-! ### What each instruction may write (10_state.md R42, R45, R50, R51; 20_memory.md R71) -/

/-- The parts of the state an instruction can write beside PC and the fault latch; FLAG in the groups of R50. -/
inductive Part where
  | a | b | c | d | e | h | l | cy | ac | szp | reserved | sp | halt | mem | port
  deriving DecidableEq, Repr

/-- The part a register operand names, or memory for M. -/
def operandPart : Operand8 → Part
  | .b => .b
  | .c => .c
  | .d => .d
  | .e => .e
  | .h => .h
  | .l => .l
  | .m => .mem
  | .a => .a

/-- The parts a pair operand names. -/
def pairParts : Pair → List Part
  | .b => [.b, .c]
  | .d => [.d, .e]
  | .h => [.h, .l]
  | .sp => [.sp]

/-- The parts POP writes beside SP. -/
def stackPairParts : StackPair → List Part
  | .b => [.b, .c]
  | .d => [.d, .e]
  | .h => [.h, .l]
  | .psw => [.a, .cy, .ac, .szp, .reserved]

/-- The parts an instruction may write (R42, R45, R50, R51, R71). -/
def mayWrite : Instr → List Part
  | .nop => []
  | .lxi rp _ => pairParts rp
  | .stax _ => [.mem]
  | .inx rp => pairParts rp
  | .inr r => [operandPart r, .ac, .szp]
  | .dcr r => [operandPart r, .ac, .szp]
  | .mvi r _ => [operandPart r]
  | .rlc => [.a, .cy]
  | .undefined _ => []
  | .dad _ => [.h, .l, .cy]
  | .ldax _ => [.a]
  | .dcx rp => pairParts rp
  | .rrc => [.a, .cy]
  | .ral => [.a, .cy]
  | .rar => [.a, .cy]
  | .rim => []
  | .shld _ => [.mem]
  | .daa => [.a, .cy, .ac, .szp]
  | .lhld _ => [.h, .l]
  | .cma => [.a]
  | .sim => []
  | .sta _ => [.mem]
  | .stc => [.cy]
  | .lda _ => [.a]
  | .cmc => [.cy]
  | .mov dst _ => [operandPart dst]
  | .hlt => [.halt]
  | .add _ => [.a, .cy, .ac, .szp]
  | .adc _ => [.a, .cy, .ac, .szp]
  | .sub _ => [.a, .cy, .ac, .szp]
  | .sbb _ => [.a, .cy, .ac, .szp]
  | .ana _ => [.a, .cy, .ac, .szp]
  | .xra _ => [.a, .cy, .ac, .szp]
  | .ora _ => [.a, .cy, .ac, .szp]
  | .cmp _ => [.cy, .ac, .szp]
  | .adi _ => [.a, .cy, .ac, .szp]
  | .aci _ => [.a, .cy, .ac, .szp]
  | .sui _ => [.a, .cy, .ac, .szp]
  | .sbi _ => [.a, .cy, .ac, .szp]
  | .ani _ => [.a, .cy, .ac, .szp]
  | .xri _ => [.a, .cy, .ac, .szp]
  | .ori _ => [.a, .cy, .ac, .szp]
  | .cpi _ => [.cy, .ac, .szp]
  | .jmp _ => []
  | .jnz _ => []
  | .jz _ => []
  | .jnc _ => []
  | .jc _ => []
  | .jpo _ => []
  | .jpe _ => []
  | .jp _ => []
  | .jm _ => []
  | .pchl => []
  | .call _ => [.sp, .mem]
  | .cnz _ => [.sp, .mem]
  | .cz _ => [.sp, .mem]
  | .cnc _ => [.sp, .mem]
  | .cc _ => [.sp, .mem]
  | .cpo _ => [.sp, .mem]
  | .cpe _ => [.sp, .mem]
  | .cp _ => [.sp, .mem]
  | .cm _ => [.sp, .mem]
  | .ret => [.sp]
  | .rnz => [.sp]
  | .rz => [.sp]
  | .rnc => [.sp]
  | .rc => [.sp]
  | .rpo => [.sp]
  | .rpe => [.sp]
  | .rp => [.sp]
  | .rm => [.sp]
  | .rst _ => [.sp, .mem]
  | .push _ => [.sp, .mem]
  | .pop rp => .sp :: stackPairParts rp
  | .xchg => [.d, .e, .h, .l]
  | .sphl => [.sp]
  | .xthl => [.h, .l, .mem]
  | .inp _ => [.a]
  | .out _ => [.port]
  | .ei => []
  | .di => []

/-- The addresses of the bytes an instruction stores to (R71), computed from the state before it. -/
def storeAddresses (s : State) : Instr → List Word
  | .nop => []
  | .lxi _ _ => []
  | .stax rp => [readIndex s rp]
  | .inx _ => []
  | .inr r => if r = .m then [regHL s] else []
  | .dcr r => if r = .m then [regHL s] else []
  | .mvi r _ => if r = .m then [regHL s] else []
  | .rlc => []
  | .undefined _ => []
  | .dad _ => []
  | .ldax _ => []
  | .dcx _ => []
  | .rrc => []
  | .ral => []
  | .rar => []
  | .rim => []
  | .shld a16 => [a16, a16 + 1]
  | .daa => []
  | .lhld _ => []
  | .cma => []
  | .sim => []
  | .sta a16 => [a16]
  | .stc => []
  | .lda _ => []
  | .cmc => []
  | .mov dst _ => if dst = .m then [regHL s] else []
  | .hlt => []
  | .add _ => []
  | .adc _ => []
  | .sub _ => []
  | .sbb _ => []
  | .ana _ => []
  | .xra _ => []
  | .ora _ => []
  | .cmp _ => []
  | .adi _ => []
  | .aci _ => []
  | .sui _ => []
  | .sbi _ => []
  | .ani _ => []
  | .xri _ => []
  | .ori _ => []
  | .cpi _ => []
  | .jmp _ => []
  | .jnz _ => []
  | .jz _ => []
  | .jnc _ => []
  | .jc _ => []
  | .jpo _ => []
  | .jpe _ => []
  | .jp _ => []
  | .jm _ => []
  | .pchl => []
  | .call _ => [s.sp - 2, s.sp - 1]
  | .cnz _ => if condHolds s .nz then [s.sp - 2, s.sp - 1] else []
  | .cz _ => if condHolds s .z then [s.sp - 2, s.sp - 1] else []
  | .cnc _ => if condHolds s .nc then [s.sp - 2, s.sp - 1] else []
  | .cc _ => if condHolds s .c then [s.sp - 2, s.sp - 1] else []
  | .cpo _ => if condHolds s .po then [s.sp - 2, s.sp - 1] else []
  | .cpe _ => if condHolds s .pe then [s.sp - 2, s.sp - 1] else []
  | .cp _ => if condHolds s .p then [s.sp - 2, s.sp - 1] else []
  | .cm _ => if condHolds s .m then [s.sp - 2, s.sp - 1] else []
  | .ret => []
  | .rnz => []
  | .rz => []
  | .rnc => []
  | .rc => []
  | .rpo => []
  | .rpe => []
  | .rp => []
  | .rm => []
  | .rst _ => if s.cfg.rstPushes then [s.sp - 2, s.sp - 1] else []
  | .push _ => [s.sp - 2, s.sp - 1]
  | .pop _ => []
  | .xchg => []
  | .sphl => []
  | .xthl => [s.sp, s.sp + 1]
  | .inp _ => []
  | .out _ => []
  | .ei => []
  | .di => []

/-- A part has the same value in two states. -/
def SamePart (s t : State) : Part → Prop
  | .a => t.a = s.a
  | .b => t.b = s.b
  | .c => t.c = s.c
  | .d => t.d = s.d
  | .e => t.e = s.e
  | .h => t.h = s.h
  | .l => t.l = s.l
  | .cy => t.flag.getLsbD 0 = s.flag.getLsbD 0
  | .ac => t.flag.getLsbD 4 = s.flag.getLsbD 4
  | .szp => t.flag.getLsbD 7 = s.flag.getLsbD 7 ∧ t.flag.getLsbD 6 = s.flag.getLsbD 6
      ∧ t.flag.getLsbD 2 = s.flag.getLsbD 2
  | .reserved => t.flag.getLsbD 1 = s.flag.getLsbD 1 ∧ t.flag.getLsbD 3 = s.flag.getLsbD 3
      ∧ t.flag.getLsbD 5 = s.flag.getLsbD 5
  | .sp => t.sp = s.sp
  | .halt => t.isHalted = s.isHalted
  | .mem => t.mem = s.mem
  | .port => t.port = s.port

/-- With `WRAP16 = Fault`, whether the instruction ends in the PC advance and nothing before it raises, in the state `s` (00_scope.md R22, R23, 60_exceptions.md R318): its data word and its new SP are in range, its mode is the datasheet one, its condition does not hold. -/
def reachesPcAdvance (s : State) : Instr → Bool
  | .nop => true
  | .lxi _ _ => true
  | .stax _ => true
  | .inx rp => rp != .sp || s.sp.toNat < 0xFFFF
  | .inr _ => true
  | .dcr _ => true
  | .mvi _ _ => true
  | .rlc => true
  | .undefined _ => false
  | .dad _ => true
  | .ldax _ => true
  | .dcx rp => rp != .sp || 0 < s.sp.toNat
  | .rrc => true
  | .ral => true
  | .rar => true
  | .rim => false
  | .shld a16 => a16 != 0xFFFF#16
  | .daa => s.cfg.daaMode == .datasheet
  | .lhld a16 => a16 != 0xFFFF#16
  | .cma => true
  | .sim => false
  | .sta _ => true
  | .stc => true
  | .lda _ => true
  | .cmc => true
  | .mov _ _ => true
  | .hlt => true
  | .add _ => true
  | .adc _ => true
  | .sub _ => true
  | .sbb _ => true
  | .ana _ => true
  | .xra _ => true
  | .ora _ => true
  | .cmp _ => true
  | .adi _ => true
  | .aci _ => true
  | .sui _ => true
  | .sbi _ => true
  | .ani _ => true
  | .xri _ => true
  | .ori _ => true
  | .cpi _ => true
  | .jmp _ => false
  | .jnz _ => !condHolds s .nz
  | .jz _ => !condHolds s .z
  | .jnc _ => !condHolds s .nc
  | .jc _ => !condHolds s .c
  | .jpo _ => !condHolds s .po
  | .jpe _ => !condHolds s .pe
  | .jp _ => !condHolds s .p
  | .jm _ => !condHolds s .m
  | .pchl => false
  | .call _ => false
  | .cnz _ => !condHolds s .nz
  | .cz _ => !condHolds s .z
  | .cnc _ => !condHolds s .nc
  | .cc _ => !condHolds s .c
  | .cpo _ => !condHolds s .po
  | .cpe _ => !condHolds s .pe
  | .cp _ => !condHolds s .p
  | .cm _ => !condHolds s .m
  | .ret => false
  | .rnz => !condHolds s .nz
  | .rz => !condHolds s .z
  | .rnc => !condHolds s .nc
  | .rc => !condHolds s .c
  | .rpo => !condHolds s .po
  | .rpe => !condHolds s .pe
  | .rp => !condHolds s .p
  | .rm => !condHolds s .m
  | .rst _ => false
  | .push _ => 2 ≤ s.sp.toNat
  | .pop _ => s.sp.toNat ≤ 0xFFFD
  | .xchg => true
  | .sphl => true
  | .xthl => s.sp != 0xFFFF#16
  | .inp _ => s.cfg.ioMode == .datasheet
  | .out _ => s.cfg.ioMode == .datasheet
  | .ei => false
  | .di => false

end Sys2Proof.Machine
end

