-- ==== Sys2Proof/Certificates/Slice0/Obligations.lean ====
section
/-! DEFINITION. The statements for the provers, each from the numbered rules of spec/. -/

open Sys2Proof Sys2Proof.Machine

/-! ### Encoding -/

/-- R115: decoding an encoded well-formed instruction gives it back, encoding what was decoded gives the bytes back, and no two opcode bytes stand for the same instruction. R115 says so of the defined opcodes; that the term `undefined` has an encoding too, its own byte, is the model's choice (log entries 6 and 7). -/
def Obligations.DecodeAndEncodeAgree : Prop :=
  (∀ (i : Instr) (rest : List Byte), i.wf = true → decode (encode i ++ rest) = .ok (i, rest))
  ∧ (∀ (bytes rest : List Byte) (i : Instr), decode bytes = .ok (i, rest) →
      i.wf = true ∧ encode i ++ rest = bytes)
  ∧ (∀ op op' b1 b2 : Byte, instrOf op b1 b2 = instrOf op' b1 b2 → op = op')

/-- R112, R311: the ten undefined bytes, and no others, decode to `Undefined`; executing one takes `UnknownOpcode` (code 1, R310) with its address and the byte, wherever it lies; and a step that takes `UnknownOpcode` met one of the ten. That `Undefined` is a term with an `exec` is the model's choice (log entry 7), and that a raising step is a next state (log entry 2). -/
def Obligations.UndefinedBytesTakeUnknownOpcode : Prop :=
  (∀ op b1 b2 : Byte, op ∈ undefinedBytes → instrOf op b1 b2 = .undefined op)
  ∧ (∀ op b1 b2 u : Byte, op ∉ undefinedBytes → instrOf op b1 b2 ≠ .undefined u)
  ∧ (∀ (op : Byte) (s : State), op ∈ undefinedBytes →
      exec (.undefined op) s = .next (latched s .unknownOpcode 1 op .none))
  ∧ (∀ s : State, s.fault = none → memRead s s.pc ∈ undefinedBytes →
      step s = .next (latched s .unknownOpcode 1 (memRead s s.pc) .none))
  ∧ (∀ (s t : State) (r : FaultRecord), step s = .next t → t.fault = some r → r.kind = .unknownOpcode →
      memRead s s.pc ∈ undefinedBytes)

/-- R102: the length is a function of the opcode byte alone. R102 says so of the defined opcodes; that the term `undefined` is one byte long, which the last clause takes in, is the model's choice (log entry 7). -/
def Obligations.LengthFollowsFromTheOpcode : Prop :=
  (∀ op : Byte, op ∉ undefinedBytes → lengthOf op =
    if op ∈ [0x06#8, 0x0E#8, 0x16#8, 0x1E#8, 0x26#8, 0x2E#8, 0x36#8, 0x3E#8, 0xC6#8, 0xCE#8, 0xD6#8,
        0xDE#8, 0xE6#8, 0xEE#8, 0xF6#8, 0xFE#8, 0xD3#8, 0xDB#8] then 2
    else if op ∈ [0x01#8, 0x11#8, 0x21#8, 0x31#8, 0x22#8, 0x2A#8, 0x32#8, 0x3A#8, 0xC3#8, 0xCD#8,
        0xC2#8, 0xCA#8, 0xD2#8, 0xDA#8, 0xE2#8, 0xEA#8, 0xF2#8, 0xFA#8,
        0xC4#8, 0xCC#8, 0xD4#8, 0xDC#8, 0xE4#8, 0xEC#8, 0xF4#8, 0xFC#8] then 3
    else 1)
  ∧ (∀ i : Instr, i.wf = true → (encode i).length = lengthOf (opcodeByte i))

/-- Eleven words written out from the spec's encodings decode to the instructions they stand for: the bytes of the document's own examples, and one word of each family. The last clause, that an opcode byte without its operand is refused by name, is the model's choice (log entry 7). A sanity statement. -/
def Obligations.SampleWordsDecode : Prop :=
  decode [0x3E#8, 0x05#8] = .ok (.mvi .a 0x05#8, [])
  ∧ decode [0x06#8, 0x03#8] = .ok (.mvi .b 0x03#8, [])
  ∧ decode [0x80#8] = .ok (.add .b, [])
  ∧ decode [0x76#8] = .ok (.hlt, [])
  ∧ decode [0xC3#8, 0x00#8, 0x03#8, 0x76#8] = .ok (.jmp 0x0003#16, [0x76#8])
  ∧ decode [0x7E#8] = .ok (.mov .a .m, [])
  ∧ decode [0x31#8, 0xFF#8, 0xF0#8] = .ok (.lxi .sp 0xFFF0#16, [])
  ∧ decode [0xF5#8] = .ok (.push .psw, [])
  ∧ decode [0xC2#8, 0x00#8, 0x06#8] = .ok (.jnz 0x0006#16, [])
  ∧ decode [0x27#8] = .ok (.daa, [])
  ∧ decode [0xA6#8] = .ok (.ana .m, [])
  ∧ decode [0x36#8] = .error (.missingOperand 0x36#8)

/-! ### The step -/

/-- R13, R86, R354: with no fault latched, when the bytes at PC decode to an instruction and all of its bytes have an address, a step is that instruction's `exec`, with nothing around it. -/
def Obligations.StepRunsTheDecodedInstruction : Prop :=
  ∀ (s : State) (i : Instr) (rest : List Byte), s.fault = none →
    decode [memRead s s.pc, memRead s (s.pc + 1), memRead s (s.pc + 2)] = .ok (i, rest) →
    CanFetch s (instrLength i) → step s = exec i s

/-- R13, R313, R318: with no fault latched and `WRAP16 = Fault`, a step whose instruction's bytes reach past 0xFFFF takes `AddressOutOfBounds(0x10000)`, as a next state (log entry 2). -/
def Obligations.OperandFetchPastTheTopFaults : Prop :=
  ∀ op : Byte, OperandFetchFaults op (lengthOf op)

/-- R316: while a fault is latched, step, run and runFor execute nothing, change nothing and return it; the host's writes still work and keep it; reset clears it. That `step` answers `Outcome.fault` there is the model's choice (log entry 2). -/
def Obligations.LatchedFaultIsReturnedAgain : Prop :=
  ∀ (s : State) (r : FaultRecord), s.fault = some r →
    step s = .fault (.latched r)
    ∧ hostStep s = (.fault r, s)
    ∧ (∀ n, runFor n s = (.fault r, s))
    ∧ (∀ report t, RunEnds s report t ↔ report = .fault r ∧ t = s)
    ∧ (hostReset s).fault = none
    ∧ (∀ x v : Int, 0 ≤ x → x ≤ 0xFFFF → ∃ t, hostSetMem s x v = .ok t ∧ t.fault = some r)
    ∧ (∀ p v : Int, 0 ≤ p → p ≤ 0xFF → 0 ≤ v → v ≤ 0xFF →
        ∃ t, hostSetPort s p v = .ok t ∧ t.fault = some r)
    ∧ (∀ i v : Int, 0 ≤ i → i ≤ 7 → v = 0 ∨ v = 1 → ∃ t, hostSetFlag s i v = .ok t ∧ t.fault = some r)
    ∧ (∀ (reg : RegName) (v : Int), 0 ≤ v → v ≤ 0xFFFF →
        ∃ t, setRegister s reg v = .ok t ∧ t.fault = some r)
    ∧ (∀ bytes : List Nat, bytes.length ≤ 65536 →
        ∃ t, hostLoadProgram s bytes = .ok t ∧ t.fault = some r)

/-- R315: a step either meets no fault, or writes the fault latch and nothing else; the latched record names the faulting instruction's address and opcode byte. That a raising step is a next state is the model's choice (log entry 2). -/
def Obligations.FaultsArePrecise : Prop :=
  ∀ s t : State, step s = .next t → t.fault = none ∨
    ∃ kind code info, t = latched s kind code (memRead s s.pc) info

/-- Every instruction answers a next state in every state, and so does a step with no fault latched: the model refuses and stops nothing of its own (R113, R114, R324, R354). A fault taken is such a next state (log entry 2). -/
def Obligations.EveryInstructionAnswersANextState : Prop :=
  (∀ (i : Instr) (s : State), ∃ t, exec i s = .next t)
  ∧ (∀ s : State, s.fault = none → ∃ t, step s = .next t)

/-- The invariant holds in the reset state, and no fault is latched there (R56, R57). Its canonical form of memory and ports is the model's representation (log entry 10). -/
def Obligations.InvariantHoldsAtReset : Prop := StateInv State.reset ∧ Safe State.reset

/-- R53, R54, R57, R310: every step keeps the invariant, from every state that has it. Its canonical form of memory and ports is the model's representation (log entry 10). -/
def Obligations.InvariantIsKeptByEveryStep : Prop :=
  ∀ s t : State, StateInv s → step s = .next t → StateInv t

/-- R53, R54, R57, R330: every host operation keeps the invariant. Its canonical form of memory and ports is the model's representation (log entry 10). -/
def Obligations.InvariantIsKeptByTheHost : Prop :=
  ∀ s t : State, StateInv s →
    StateInv (hostReset s)
    ∧ (∀ bytes, hostLoadProgram s bytes = .ok t → StateInv t)
    ∧ (∀ x v, hostSetMem s x v = .ok t → StateInv t)
    ∧ (∀ p v, hostSetPort s p v = .ok t → StateInv t)
    ∧ (∀ name v, hostSetReg s name v = .ok t → StateInv t)
    ∧ (∀ i v, hostSetFlag s i v = .ok t → StateInv t)
    ∧ StateInv (hostStep s).2
    ∧ (∀ n, StateInv (runFor n s).2)
    ∧ (∀ report u, RunEnds s report u → StateInv u)

/-- R7: no instruction and no host operation changes the configuration, and the machine is reset with the spec's defaults. That the configuration is carried in `State` is the model's choice (log entry 1). -/
def Obligations.ConfigurationNeverChanges : Prop :=
  (∀ (i : Instr) (s t : State), exec i s = .next t → t.cfg = s.cfg)
  ∧ (∀ s t : State, step s = .next t → t.cfg = s.cfg)
  ∧ (∀ s : State, (hostStep s).2.cfg = s.cfg)
  ∧ (∀ (s : State) (n : Nat), (runFor n s).2.cfg = s.cfg)
  ∧ (∀ (s u : State) (report : RunReport), RunEnds s report u → u.cfg = s.cfg)
  ∧ (∀ s t : State, (hostReset s).cfg = s.cfg
      ∧ (∀ bytes, hostLoadProgram s bytes = .ok t → t.cfg = s.cfg)
      ∧ (∀ x v, hostSetMem s x v = .ok t → t.cfg = s.cfg)
      ∧ (∀ p v, hostSetPort s p v = .ok t → t.cfg = s.cfg)
      ∧ (∀ name v, hostSetReg s name v = .ok t → t.cfg = s.cfg)
      ∧ (∀ i v, hostSetFlag s i v = .ok t → t.cfg = s.cfg))
  ∧ State.reset.cfg = {
      dataWordOrder := .highAtLower
      wrap16 := .fault
      acSubMode := .halfBorrow
      rstPushes := true
      daaMode := .fault
      ioMode := .fault }

/-- R20, R42, R45, R49, R50, R51, R71: the frame of every instruction. Whatever it does, each part of the state that its row of `mayWrite` does not list is unchanged, and every byte of memory outside the addresses it stores to reads as before. -/
def Obligations.InstructionsWriteOnlyTheirParts : Prop :=
  ∀ (i : Instr) (s t : State), exec i s = .next t →
    (∀ p : Part, p ∉ mayWrite i → SamePart s t p)
    ∧ (∀ x : Word, x ∉ storeAddresses s i → memRead t x = memRead s x)

/-- R51, R354: a step does not read the halt latch: from a state that differs only there it does the same, and it changes the latch only when the byte at PC is HLT's. -/
def Obligations.StepIgnoresTheHaltLatch : Prop :=
  ∀ (s t : State) (x : Bool), step s = .next t →
    ∃ y, step { s with isHalted := x } = .next { t with isHalted := y }
      ∧ (memRead s s.pc ≠ 0x76#8 → t.isHalted = s.isHalted ∧ y = x)
      ∧ (memRead s s.pc = 0x76#8 → t.fault = none → t.isHalted = true ∧ y = true)

/-- R54, R72: with `IO_MODE = Fault` no instruction reads or writes a port. -/
def Obligations.PortsAreOutOfReachInFaultMode : Prop :=
  ∀ (s t : State) (ports : Memory), s.cfg.ioMode = .fault → step s = .next t →
    t.port = s.port ∧ step { s with port := ports } = .next { t with port := ports }

/-- R10, R11: with `WRAP16 = Wrap` no step takes `AddressOutOfBounds` or `RegisterOutOfRange`. -/
def Obligations.WrapModeHasNoBoundsFault : Prop :=
  ∀ (s t : State) (r : FaultRecord), s.cfg.wrap16 = .wrap → step s = .next t → t.fault = some r →
    r.kind = .unknownOpcode ∨ r.kind = .notImplemented

/-- R22, R23, R314: with `WRAP16 = Fault`, an instruction that ends in the PC advance, with nothing before it that raises, takes `RegisterOutOfRange(PC, PC + len)` when the advance leaves [0, 0xFFFF]. -/
def Obligations.PcAdvancePastTheTopFaults : Prop :=
  ∀ (i : Instr) (s : State), reachesPcAdvance s i = true → s.cfg.wrap16 = .fault →
    0xFFFF < s.pc.toNat + (encode i).length →
    exec i s = .next (pcFault s (opcodeByte i) (encode i).length)

/-! ### State, reset and the host -/

/-- R43: the pairs BC, DE and HL read as high * 256 + low, and writing a 16-bit value writes its two bytes. -/
def Obligations.RegisterPairsAreHighThenLow : Prop :=
  ∀ s : State,
    (regBC s).toNat = 256 * s.b.toNat + s.c.toNat
    ∧ (regDE s).toNat = 256 * s.d.toNat + s.e.toNat
    ∧ (regHL s).toNat = 256 * s.h.toNat + s.l.toNat
    ∧ ∀ (rp : Pair) (v : Word), writePair s rp v = assignPair s rp v.toNat

/-- R81, R53, R54: a read returns the last write to that cell or port, and a write touches nothing else. -/
def Obligations.ReadsReturnTheLastWrite : Prop :=
  ∀ (s : State) (x : Word) (p v : Byte),
    (StoresByte s (memWrite s x v) x v ∧ memWrite s x v = { s with mem := (memWrite s x v).mem })
    ∧ (∀ q : Byte, portRead (portWrite s p v) q = if q = p then v else portRead s q)
    ∧ portWrite s p v = { s with port := (portWrite s p v).port }

/-- Memories in canonical form that read alike everywhere are equal, so equal memories are equal data (R53). The canonical form is the model's representation (log entry 10). -/
def Obligations.CanonicalMemoriesAreEqualWhenTheyReadAlike : Prop :=
  ∀ (size : Nat) (m m' : Memory), Memory.wf size m = true → Memory.wf size m' = true →
    (∀ x, x < size → Memory.read m x = Memory.read m' x) → m = m'

/-- R56, R350, R351: what every component holds after reset, whatever it held before; reset is idempotent and does not depend on the state before it. -/
def Obligations.ResetGivesTheResetValues : Prop :=
  hostReset State.reset = State.reset
  ∧ (∀ s : State, hostReset (hostReset s) = hostReset s)
  ∧ (∀ s s' : State, s.cfg = s'.cfg → hostReset s = hostReset s')
  ∧ ∀ s : State, let t := hostReset s
    t.a = 0x00#8 ∧ t.b = 0x00#8 ∧ t.c = 0x00#8 ∧ t.d = 0x00#8 ∧ t.e = 0x00#8 ∧ t.h = 0x00#8 ∧ t.l = 0x00#8
    ∧ t.sp = 0x0000#16 ∧ t.pc = 0x0000#16 ∧ t.flag = 0x00#8 ∧ t.isHalted = true ∧ t.fault = none
    ∧ (∀ x, memRead t x = 0x00#8) ∧ (∀ p, portRead t p = 0x00#8)

/-- R353: loadProgram stores the bytes, masked, from address 0 on and changes nothing else; a program of more than 65536 bytes fails. -/
def Obligations.LoadProgramStoresFromZero : Prop :=
  ∀ (s : State) (bytes : List Nat),
    (65536 < bytes.length → hostLoadProgram s bytes = .error .hostProgramTooLarge)
    ∧ (bytes.length ≤ 65536 → ∃ t, hostLoadProgram s bytes = .ok t ∧ t = { s with mem := t.mem }
        ∧ ∀ x : Word, memRead t x =
          match bytes[x.toNat]? with
          | some v => BitVec.ofNat 8 v
          | none => memRead s x)

/-- R356: getMem and setMem. -/
def Obligations.MemoryCellGetAndSet : Prop :=
  ∀ (s : State) (x v : Int),
    ((x < 0 ∨ 0xFFFF < x) → hostGetMem s x = .error .hostAddressOutOfBounds
      ∧ hostSetMem s x v = .error .hostAddressOutOfBounds)
    ∧ ∀ w : Word, x = w.toNat → hostGetMem s x = .ok (memRead s w)
      ∧ ∃ t, hostSetMem s x v = .ok t ∧ t = { s with mem := t.mem }
        ∧ StoresByte s t w (BitVec.ofNat 8 (v % 256).toNat)

/-- R357: getReg and setReg; 8-bit registers mask the value, SP and PC check it, an unknown name fails. -/
def Obligations.RegisterGetAndSet : Prop :=
  ∀ (s : State) (v : Int),
    (∀ name, name ∉ ["A", "B", "C", "D", "E", "H", "L", "SP", "PC", "FLAG"] →
      hostGetReg s name = .error .hostUnknownRegister
      ∧ hostSetReg s name v = .error .hostUnknownRegister)
    ∧ (hostGetReg s "A" = .ok s.a.toNat ∧ hostGetReg s "B" = .ok s.b.toNat
      ∧ hostGetReg s "C" = .ok s.c.toNat ∧ hostGetReg s "D" = .ok s.d.toNat
      ∧ hostGetReg s "E" = .ok s.e.toNat ∧ hostGetReg s "H" = .ok s.h.toNat
      ∧ hostGetReg s "L" = .ok s.l.toNat ∧ hostGetReg s "SP" = .ok s.sp.toNat
      ∧ hostGetReg s "PC" = .ok s.pc.toNat ∧ hostGetReg s "FLAG" = .ok s.flag.toNat)
    ∧ (let w : Byte := BitVec.ofNat 8 (v % 256).toNat
      hostSetReg s "A" v = .ok { s with a := w } ∧ hostSetReg s "B" v = .ok { s with b := w }
      ∧ hostSetReg s "C" v = .ok { s with c := w } ∧ hostSetReg s "D" v = .ok { s with d := w }
      ∧ hostSetReg s "E" v = .ok { s with e := w } ∧ hostSetReg s "H" v = .ok { s with h := w }
      ∧ hostSetReg s "L" v = .ok { s with l := w } ∧ hostSetReg s "FLAG" v = .ok { s with flag := w })
    ∧ (0 ≤ v → v ≤ 0xFFFF →
      hostSetReg s "SP" v = .ok { s with sp := BitVec.ofNat 16 v.toNat }
      ∧ hostSetReg s "PC" v = .ok { s with pc := BitVec.ofNat 16 v.toNat })
    ∧ ((v < 0 ∨ 0xFFFF < v) → hostSetReg s "SP" v = .error .hostValueOutOfRange
      ∧ hostSetReg s "PC" v = .error .hostValueOutOfRange)

/-- R358: getPort and setPort; the number and the value are checked, not masked. That a bad number is reported before a bad value is the model's choice (log entry 10). -/
def Obligations.PortGetAndSet : Prop :=
  ∀ (s : State) (p v : Int),
    ((p < 0 ∨ 0xFF < p) → hostGetPort s p = .error .hostAddressOutOfBounds
      ∧ hostSetPort s p v = .error .hostAddressOutOfBounds)
    ∧ ∀ q : Byte, p = q.toNat → hostGetPort s p = .ok (portRead s q)
      ∧ ((v < 0 ∨ 0xFF < v) → hostSetPort s p v = .error .hostValueOutOfRange)
      ∧ (0 ≤ v → v ≤ 0xFF → ∃ t, hostSetPort s p v = .ok t ∧ t = { s with port := t.port }
        ∧ ∀ q', portRead t q' = if q' = q then BitVec.ofNat 8 v.toNat else portRead s q')

/-- R359: getFlag and setFlag, reserved bits included; the other seven bits keep their values. That a bad index is reported before a bad value is the model's choice (log entry 10). -/
def Obligations.FlagBitGetAndSet : Prop :=
  ∀ (s : State) (i v : Int),
    ((i < 0 ∨ 7 < i) → hostGetFlag s i = .error .hostFlagIndexOutOfRange
      ∧ hostSetFlag s i v = .error .hostFlagIndexOutOfRange)
    ∧ ∀ k : Nat, i = k → k ≤ 7 → hostGetFlag s i = .ok (s.flag.getLsbD k)
      ∧ (v ≠ 0 → v ≠ 1 → hostSetFlag s i v = .error .hostValueOutOfRange)
      ∧ ((v = 0 ∨ v = 1) → ∃ t, hostSetFlag s i v = .ok t ∧ t = { s with flag := t.flag }
        ∧ ∀ j, j < 8 → t.flag.getLsbD j = if j = k then decide (v = 1) else s.flag.getLsbD j)

/-- R317, R354: a step call with no fault latched reports Ok or the fault it met, and a fault changes neither the halt latch nor anything but the fault latch. -/
def Obligations.StepReportsItsFault : Prop :=
  ∀ s : State, s.fault = none →
    ((hostStep s).1 = .ok ∧ (hostStep s).2.fault = none ∧ step s = .next (hostStep s).2)
    ∨ ∃ r, hostStep s = (.fault r, { s with fault := some r }) ∧ r.pc = s.pc
        ∧ r.opcode = memRead s s.pc

/-- R355, R360, R367: runFor agrees with run on every run that ends within its budget, run ends with at most one report, and a budget used up keeps the state its steps produced. That run is a relation is the model's choice (log entry 5). -/
def Obligations.RunForAgreesWithRun : Prop :=
  (∀ (s t : State) (report : RunReport), RunEnds s report t ↔
    report ≠ .outOfSteps ∧ ∃ n, runFor n s = (report, t))
  ∧ (∀ (s t t' : State) (report report' : RunReport), RunEnds s report t → RunEnds s report' t' →
    report = report' ∧ t = t')
  ∧ (∀ (s t : State) (report : RunReport) (n m : Nat), n ≤ m → runFor n s = (report, t) →
    report ≠ .outOfSteps → runFor m s = (report, t))
  ∧ (∀ (s t : State) (n : Nat), runFor n s = (.outOfSteps, t) →
    Host.Core.run core n { s with isHalted := false, pc := 0x0000#16 } = .next t)

/-- R360: with `WRAP16 = Fault` a run of a freshly reset machine executes NOPs up to 0xFFFF and ends there with `RegisterOutOfRange(PC, 0x10000)`; with `WRAP16 = Wrap` no budget suffices. -/
def Obligations.EmptyMachineRunsOffTheTop : Prop :=
  ∀ s : State,
    (s.cfg.wrap16 = .fault →
      RunEnds (hostReset s)
        (.fault ⟨.registerOutOfRange, 4, 0xFFFF#16, 0x00#8, .register .pc 0x10000⟩)
        { hostReset s with
          isHalted := false
          pc := 0xFFFF#16
          fault := some ⟨.registerOutOfRange, 4, 0xFFFF#16, 0x00#8, .register .pc 0x10000⟩ })
    ∧ (s.cfg.wrap16 = .wrap → ∀ n, (runFor n (hostReset s)).1 = .outOfSteps)

/-! ### Data transfer and stack -/

/-- R140, R141, R142: MOV copies one byte between registers, or to or from the byte at HL, and changes nothing else but PC. -/
def Obligations.MovCopiesOneByte : Prop :=
  ∀ (dst src : Operand8) (s : State), ¬(dst = .m ∧ src = .m) →
    encode (.mov dst src) = [BitVec.ofNat 8 (0x40 + 8 * codeOf dst + codeOf src)]
    ∧ (CanAdvance s 1 →
      (dst ≠ .m → exec (.mov dst src) s
          = .next { assignReg s dst (readOperand s src) with pc := s.pc + 1 })
      ∧ (dst = .m → ∃ t, exec (.mov dst src) s = .next t ∧ t = { s with mem := t.mem, pc := s.pc + 1 }
          ∧ StoresByte s t (regHL s) (readOperand s src)))

/-- R143, R144: MVI puts its immediate byte in a register or in the byte at HL. -/
def Obligations.MviPutsItsImmediate : Prop :=
  ∀ (r : Operand8) (d8 : Byte) (s : State),
    encode (.mvi r d8) = [BitVec.ofNat 8 (0x06 + 8 * codeOf r), d8]
    ∧ OperandFetchFaults (BitVec.ofNat 8 (0x06 + 8 * codeOf r)) 2
    ∧ (CanAdvance s 2 →
      (r ≠ .m → exec (.mvi r d8) s = .next { assignReg s r d8 with pc := s.pc + 2 })
      ∧ (r = .m → ∃ t, exec (.mvi r d8) s = .next t ∧ t = { s with mem := t.mem, pc := s.pc + 2 }
          ∧ StoresByte s t (regHL s) d8))

/-- R145, R146: LXI puts its 16-bit immediate, high byte first in the instruction, in a pair or in SP. -/
def Obligations.LxiPutsItsImmediate : Prop :=
  ∀ (rp : Pair) (d16 : Word) (s : State),
    encode (.lxi rp d16) = [BitVec.ofNat 8 (0x01 + 16 * pairOf rp), highOf d16, lowOf d16]
    ∧ OperandFetchFaults (BitVec.ofNat 8 (0x01 + 16 * pairOf rp)) 3
    ∧ (CanAdvance s 3 → exec (.lxi rp d16) s = .next { assignPair s rp d16.toNat with pc := s.pc + 3 })

/-- R147, R151: LDA and LDAX load A from the address in the instruction, in BC or in DE. -/
def Obligations.LdaAndLdaxLoadA : Prop :=
  ∀ (x : Word) (s : State),
    encode (.lda x) = [0x3A#8, highOf x, lowOf x] ∧ OperandFetchFaults 0x3A#8 3
    ∧ (CanAdvance s 3 → exec (.lda x) s = .next { s with a := memRead s x, pc := s.pc + 3 })
    ∧ encode (.ldax .b) = [0x0A#8] ∧ encode (.ldax .d) = [0x1A#8]
    ∧ (CanAdvance s 1 →
      exec (.ldax .b) s = .next { s with a := memRead s (regBC s), pc := s.pc + 1 }
      ∧ exec (.ldax .d) s = .next { s with a := memRead s (regDE s), pc := s.pc + 1 })

/-- R148, R152: STA and STAX store A at the address in the instruction, in BC or in DE. -/
def Obligations.StaAndStaxStoreA : Prop :=
  ∀ (x : Word) (s : State),
    encode (.sta x) = [0x32#8, highOf x, lowOf x] ∧ OperandFetchFaults 0x32#8 3
    ∧ (CanAdvance s 3 → ∃ t, exec (.sta x) s = .next t
        ∧ t = { s with mem := t.mem, pc := s.pc + 3 } ∧ StoresByte s t x s.a)
    ∧ encode (.stax .b) = [0x02#8] ∧ encode (.stax .d) = [0x12#8]
    ∧ (CanAdvance s 1 →
      (∃ t, exec (.stax .b) s = .next t
        ∧ t = { s with mem := t.mem, pc := s.pc + 1 } ∧ StoresByte s t (regBC s) s.a)
      ∧ (∃ t, exec (.stax .d) s = .next t
        ∧ t = { s with mem := t.mem, pc := s.pc + 1 } ∧ StoresByte s t (regDE s) s.a))

/-- R149, R150: LHLD and SHLD move HL from and to the data word at their address, in the configured byte order; at 0xFFFF they fault when `WRAP16 = Fault`. -/
def Obligations.LhldAndShldMoveAWord : Prop :=
  ∀ (x : Word) (s : State),
    encode (.lhld x) = [0x2A#8, highOf x, lowOf x] ∧ OperandFetchFaults 0x2A#8 3
    ∧ encode (.shld x) = [0x22#8, highOf x, lowOf x] ∧ OperandFetchFaults 0x22#8 3
    ∧ (CanAdvance s 3 → WordFits s x →
      exec (.lhld x) s = .next { s with h := (wordAt s x).1, l := (wordAt s x).2, pc := s.pc + 3 }
      ∧ ∃ t, exec (.shld x) s = .next t ∧ t = { s with mem := t.mem, pc := s.pc + 3 }
        ∧ StoresWord s t x s.h s.l)
    ∧ (s.cfg.wrap16 = .fault → x = 0xFFFF#16 →
      exec (.lhld x) s = .next (latched s .addressOutOfBounds 3 0x2A#8 (.address 0x10000))
      ∧ exec (.shld x) s = .next (latched s .addressOutOfBounds 3 0x22#8 (.address 0x10000)))

/-- R153, R154: XCHG exchanges HL and DE; SPHL copies HL to SP. -/
def Obligations.XchgAndSphl : Prop :=
  ∀ s : State, encode .xchg = [0xEB#8] ∧ encode .sphl = [0xF9#8]
    ∧ (CanAdvance s 1 →
      exec .xchg s = .next { s with h := s.d, l := s.e, d := s.h, e := s.l, pc := s.pc + 1 }
      ∧ exec .sphl s
        = .next { s with sp := BitVec.ofNat 16 (256 * s.h.toNat + s.l.toNat), pc := s.pc + 1 })

/-- R155: XTHL exchanges HL with the data word at SP; SP is unchanged; at SP = 0xFFFF it faults when `WRAP16 = Fault`. -/
def Obligations.XthlExchangesTheTopOfTheStack : Prop :=
  ∀ s : State, encode .xthl = [0xE3#8]
    ∧ (CanAdvance s 1 → WordFits s s.sp → ∃ t, exec .xthl s = .next t
        ∧ t = { s with h := (wordAt s s.sp).1, l := (wordAt s s.sp).2, mem := t.mem, pc := s.pc + 1 }
        ∧ StoresWord s t s.sp s.h s.l)
    ∧ (s.cfg.wrap16 = .fault → s.sp = 0xFFFF#16 →
      exec .xthl s = .next (latched s .addressOutOfBounds 3 0xE3#8 (.address 0x10000)))

/-- R156, R157: PUSH stores a pair, or A and all of FLAG, below SP, and SP moves down by 2; below 2 it faults when `WRAP16 = Fault`, before the PC advance can. -/
def Obligations.PushStoresAPair : Prop :=
  ∀ (rp : StackPair) (s : State), encode (.push rp) = [BitVec.ofNat 8 (0xC5 + 16 * stackPairOf rp)]
    ∧ (CanPush s → CanAdvance s 1 → ∃ t, exec (.push rp) s = .next t
        ∧ t = { s with mem := t.mem, sp := s.sp - 2, pc := s.pc + 1 }
        ∧ StoresWord s t (s.sp - 2) (stackPairValue s rp).1 (stackPairValue s rp).2)
    ∧ (s.cfg.wrap16 = .fault → s.sp.toNat < 2 →
      exec (.push rp) s = .next (pushFault s (BitVec.ofNat 8 (0xC5 + 16 * stackPairOf rp))))
    ∧ (s.cfg.wrap16 = .fault → 2 ≤ s.sp.toNat → s.pc.toNat = 0xFFFF →
      exec (.push rp) s = .next (pcFault s (BitVec.ofNat 8 (0xC5 + 16 * stackPairOf rp)) 1))

/-- R158, R159: POP loads a pair, or A and all eight bits of FLAG, from the data word at SP, and SP moves up by 2; at 0xFFFF and 0xFFFE it faults when `WRAP16 = Fault`. -/
def Obligations.PopLoadsAPair : Prop :=
  ∀ (rp : StackPair) (s : State), encode (.pop rp) = [BitVec.ofNat 8 (0xC1 + 16 * stackPairOf rp)]
    ∧ (CanPop s → CanAdvance s 1 → exec (.pop rp) s
        = .next { assignStackPair s rp (wordAt s s.sp) with sp := s.sp + 2, pc := s.pc + 1 })
    ∧ (s.cfg.wrap16 = .fault → s.sp.toNat = 0xFFFF → exec (.pop rp) s
        = .next (latched s .addressOutOfBounds 3 (BitVec.ofNat 8 (0xC1 + 16 * stackPairOf rp))
            (.address 0x10000)))
    ∧ (s.cfg.wrap16 = .fault → s.sp.toNat = 0xFFFE → exec (.pop rp) s
        = .next (latched s .registerOutOfRange 4 (BitVec.ofNat 8 (0xC1 + 16 * stackPairOf rp))
            (.register .sp 0x10000)))

/-- The stack property (R15, R158, R265): what one pair pushes another pops, with SP back where it was, in either data word order; and a return after a call comes back to the instruction after the call. Beside the two stack bytes nothing else changes. -/
def Obligations.PopUndoesPushAndReturnUndoesCall : Prop :=
  ∀ (s t : State), CanPush s →
    (CanAdvance s 2 → exec (.push .b) s = .next t → ∃ u, exec (.pop .d) t = .next u
      ∧ u = { s with d := s.b, e := s.c, mem := t.mem, pc := s.pc + 2 }
      ∧ ∀ y : Word, y ∉ storeAddresses s (.push .b) → memRead u y = memRead s y)
    ∧ ∀ x : Word, CanAdvance s 3 → exec (.call x) s = .next t → ∃ u, exec .ret t = .next u
      ∧ u = { s with mem := t.mem, pc := s.pc + 3 }
      ∧ ∀ y : Word, y ∉ storeAddresses s (.call x) → memRead u y = memRead s y

/-! ### Arithmetic -/

/-- R180 to R185: ADD, ADC, ADI, ACI. A gets the sum modulo 256; CY, AC, S, Z, P as R17 and R18 say; nothing else changes but PC. -/
def Obligations.AdditionsAdd : Prop :=
  ∀ (r : Operand8) (d8 : Byte) (s : State),
    let sum (y c : Nat) := s.a.toNat + y + c
    let cy := (s.flag.getLsbD 0).toNat
    let result (y : Byte) (c len : Nat) : State := { s with
      a := BitVec.ofNat 8 (sum y.toNat c)
      flag := resultByte s.flag (sum y.toNat c % 256)
        (decide (15 < s.a.toNat % 16 + y.toNat % 16 + c)) (decide (255 < sum y.toNat c))
      pc := s.pc + BitVec.ofNat 16 len }
    encode (.add r) = [BitVec.ofNat 8 (0x80 + codeOf r)]
    ∧ encode (.adc r) = [BitVec.ofNat 8 (0x88 + codeOf r)]
    ∧ encode (.adi d8) = [0xC6#8, d8] ∧ OperandFetchFaults 0xC6#8 2
    ∧ encode (.aci d8) = [0xCE#8, d8] ∧ OperandFetchFaults 0xCE#8 2
    ∧ (CanAdvance s 1 → exec (.add r) s = .next (result (readOperand s r) 0 1)
      ∧ exec (.adc r) s = .next (result (readOperand s r) cy 1))
    ∧ (CanAdvance s 2 → exec (.adi d8) s = .next (result d8 0 2)
      ∧ exec (.aci d8) s = .next (result d8 cy 2))

/-- R186 to R191: SUB, SBB, SUI, SBI. A gets the difference modulo 256; CY is the borrow, AC as `AC_SUB_MODE` says, S, Z, P from the result; nothing else changes but PC. -/
def Obligations.SubtractionsSubtract : Prop :=
  ∀ (r : Operand8) (d8 : Byte) (s : State),
    let cy := (s.flag.getLsbD 0).toNat
    let result (y : Byte) (b len : Nat) : State := { s with
      a := BitVec.ofNat 8 (differenceOf s.a y b)
      flag := resultByte s.flag (differenceOf s.a y b) (borrowAC s.cfg s.a y b)
        (decide (s.a.toNat < y.toNat + b))
      pc := s.pc + BitVec.ofNat 16 len }
    encode (.sub r) = [BitVec.ofNat 8 (0x90 + codeOf r)]
    ∧ encode (.sbb r) = [BitVec.ofNat 8 (0x98 + codeOf r)]
    ∧ encode (.sui d8) = [0xD6#8, d8] ∧ OperandFetchFaults 0xD6#8 2
    ∧ encode (.sbi d8) = [0xDE#8, d8] ∧ OperandFetchFaults 0xDE#8 2
    ∧ (CanAdvance s 1 → exec (.sub r) s = .next (result (readOperand s r) 0 1)
      ∧ exec (.sbb r) s = .next (result (readOperand s r) cy 1))
    ∧ (CanAdvance s 2 → exec (.sui d8) s = .next (result d8 0 2)
      ∧ exec (.sbi d8) s = .next (result d8 cy 2))

/-- R192, R193: INR adds one to a register or to the byte at HL; AC, S, Z, P; CY is unaffected. -/
def Obligations.InrAddsOne : Prop :=
  ∀ (r : Operand8) (s : State),
    let v := (readOperand s r).toNat
    let flags := resultByte s.flag ((v + 1) % 256) (decide (v % 16 = 15)) (s.flag.getLsbD 0)
    encode (.inr r) = [BitVec.ofNat 8 (0x04 + 8 * codeOf r)]
    ∧ (CanAdvance s 1 →
      (r ≠ .m → exec (.inr r) s
        = .next { assignReg s r (BitVec.ofNat 8 (v + 1)) with flag := flags, pc := s.pc + 1 })
      ∧ (r = .m → ∃ t, exec (.inr r) s = .next t
        ∧ t = { s with mem := t.mem, flag := flags, pc := s.pc + 1 }
        ∧ StoresByte s t (regHL s) (BitVec.ofNat 8 (v + 1))))

/-- R194, R195: DCR subtracts one from a register or from the byte at HL; AC (by `AC_SUB_MODE`), S, Z, P; CY is unaffected. -/
def Obligations.DcrSubtractsOne : Prop :=
  ∀ (r : Operand8) (s : State),
    let v := (readOperand s r).toNat
    let flags := resultByte s.flag ((v + 255) % 256) (borrowAC s.cfg (readOperand s r) 0x01#8 0)
      (s.flag.getLsbD 0)
    encode (.dcr r) = [BitVec.ofNat 8 (0x05 + 8 * codeOf r)]
    ∧ (CanAdvance s 1 →
      (r ≠ .m → exec (.dcr r) s
        = .next { assignReg s r (BitVec.ofNat 8 (v + 255)) with flag := flags, pc := s.pc + 1 })
      ∧ (r = .m → ∃ t, exec (.dcr r) s = .next t
        ∧ t = { s with mem := t.mem, flag := flags, pc := s.pc + 1 }
        ∧ StoresByte s t (regHL s) (BitVec.ofNat 8 (v + 255))))

/-- R196: DAD adds a pair or SP to HL modulo 65536; only CY, set iff the sum exceeds 0xFFFF. -/
def Obligations.DadAddsToHL : Prop :=
  ∀ (rp : Pair) (s : State),
    let sum := pairValue s .h + pairValue s rp
    encode (.dad rp) = [BitVec.ofNat 8 (0x09 + 16 * pairOf rp)]
    ∧ (CanAdvance s 1 → exec (.dad rp) s = .next { assignPair s .h (sum % 65536) with
        flag := carryByte s.flag (decide (0xFFFF < sum)), pc := s.pc + 1 })

/-- R197, R198: INX adds one to a pair modulo 65536, or to SP, which faults past 0xFFFF when `WRAP16 = Fault`; no flags. -/
def Obligations.InxAddsOneToAPair : Prop :=
  ∀ (rp : Pair) (s : State), encode (.inx rp) = [BitVec.ofNat 8 (0x03 + 16 * pairOf rp)]
    ∧ (CanAdvance s 1 → (rp = .sp → s.cfg.wrap16 = .wrap ∨ s.sp.toNat ≠ 0xFFFF) →
      exec (.inx rp) s
        = .next { assignPair s rp ((pairValue s rp + 1) % 65536) with pc := s.pc + 1 })
    ∧ (s.cfg.wrap16 = .fault → s.sp.toNat = 0xFFFF →
      exec (.inx .sp) s = .next (latched s .registerOutOfRange 4 0x33#8 (.register .sp 0x10000)))

/-- R199, R200: DCX subtracts one from a pair modulo 65536, or from SP, which faults below 0 when `WRAP16 = Fault`; no flags. -/
def Obligations.DcxSubtractsOneFromAPair : Prop :=
  ∀ (rp : Pair) (s : State), encode (.dcx rp) = [BitVec.ofNat 8 (0x0B + 16 * pairOf rp)]
    ∧ (CanAdvance s 1 → (rp = .sp → s.cfg.wrap16 = .wrap ∨ s.sp.toNat ≠ 0) →
      exec (.dcx rp) s
        = .next { assignPair s rp ((pairValue s rp + 65535) % 65536) with pc := s.pc + 1 })
    ∧ (s.cfg.wrap16 = .fault → s.sp.toNat = 0 →
      exec (.dcx .sp) s = .next (latched s .registerOutOfRange 4 0x3B#8 (.register .sp (-1))))

/-! ### Logical, rotate, compare and flag instructions -/

/-- R220 to R228: ANA, ANI, XRA, XRI, ORA, ORI, bit by bit; CY is 0, AC is 1 for AND and 0 for the others, S, Z, P from the result. -/
def Obligations.LogicalInstructions : Prop :=
  ∀ (r : Operand8) (d8 : Byte) (s : State),
    let result (v : Byte) (ac : Bool) (len : Nat) : State := { s with
      a := v, flag := resultByte s.flag v.toNat ac false, pc := s.pc + BitVec.ofNat 16 len }
    let x := readOperand s r
    encode (.ana r) = [BitVec.ofNat 8 (0xA0 + codeOf r)]
    ∧ encode (.xra r) = [BitVec.ofNat 8 (0xA8 + codeOf r)]
    ∧ encode (.ora r) = [BitVec.ofNat 8 (0xB0 + codeOf r)]
    ∧ encode (.ani d8) = [0xE6#8, d8] ∧ OperandFetchFaults 0xE6#8 2
    ∧ encode (.xri d8) = [0xEE#8, d8] ∧ OperandFetchFaults 0xEE#8 2
    ∧ encode (.ori d8) = [0xF6#8, d8] ∧ OperandFetchFaults 0xF6#8 2
    ∧ (CanAdvance s 1 → exec (.ana r) s = .next (result (s.a &&& x) true 1)
      ∧ exec (.xra r) s = .next (result (s.a ^^^ x) false 1)
      ∧ exec (.ora r) s = .next (result (s.a ||| x) false 1))
    ∧ (CanAdvance s 2 → exec (.ani d8) s = .next (result (s.a &&& d8) true 2)
      ∧ exec (.xri d8) s = .next (result (s.a ^^^ d8) false 2)
      ∧ exec (.ori d8) s = .next (result (s.a ||| d8) false 2))

/-- R229 to R232: RLC, RRC, RAL, RAR; CY is the bit shifted out; no other flag. -/
def Obligations.RotatesMoveOneBit : Prop :=
  ∀ s : State,
    let n := s.a.toNat
    let cy := (s.flag.getLsbD 0).toNat
    let result (v : Nat) (out : Nat) : State := { s with
      a := BitVec.ofNat 8 v, flag := carryByte s.flag (decide (out = 1)), pc := s.pc + 1 }
    encode .rlc = [0x07#8] ∧ encode .rrc = [0x0F#8] ∧ encode .ral = [0x17#8] ∧ encode .rar = [0x1F#8]
    ∧ (CanAdvance s 1 →
      exec .rlc s = .next (result (2 * (n % 128) + n / 128) (n / 128))
      ∧ exec .rrc s = .next (result (n / 2 + 128 * (n % 2)) (n % 2))
      ∧ exec .ral s = .next (result (2 * (n % 128) + cy) (n / 128))
      ∧ exec .rar s = .next (result (n / 2 + 128 * cy) (n % 2)))

/-- R233, R234, R235: CMP and CPI set the flags of A minus the operand, CY exactly when A is less; A is unchanged. -/
def Obligations.ComparesSetFlagsOnly : Prop :=
  ∀ (r : Operand8) (d8 : Byte) (s : State),
    let result (y : Byte) (len : Nat) : State := { s with
      flag := resultByte s.flag (differenceOf s.a y 0) (borrowAC s.cfg s.a y 0)
        (decide (s.a.toNat < y.toNat))
      pc := s.pc + BitVec.ofNat 16 len }
    encode (.cmp r) = [BitVec.ofNat 8 (0xB8 + codeOf r)]
    ∧ encode (.cpi d8) = [0xFE#8, d8] ∧ OperandFetchFaults 0xFE#8 2
    ∧ (CanAdvance s 1 → exec (.cmp r) s = .next (result (readOperand s r) 1))
    ∧ (CanAdvance s 2 → exec (.cpi d8) s = .next (result d8 2))

/-- R236, R237, R238: CMA complements A and no flag; CMC toggles CY; STC sets it. -/
def Obligations.CmaCmcStc : Prop :=
  ∀ s : State, encode .cma = [0x2F#8] ∧ encode .cmc = [0x3F#8] ∧ encode .stc = [0x37#8]
    ∧ (CanAdvance s 1 →
      exec .cma s = .next { s with a := BitVec.ofNat 8 (255 - s.a.toNat), pc := s.pc + 1 }
      ∧ exec .cmc s
        = .next { s with flag := carryByte s.flag (!(s.flag.getLsbD 0)), pc := s.pc + 1 }
      ∧ exec .stc s = .next { s with flag := carryByte s.flag true, pc := s.pc + 1 })

/-! ### Control transfer and halt -/

/-- R260, R261, R262: JMP, the eight conditional jumps taken and not taken, and PCHL. -/
def Obligations.JumpsSetPC : Prop :=
  ∀ (x : Word) (s : State),
    encode (.jmp x) = [0xC3#8, highOf x, lowOf x] ∧ OperandFetchFaults 0xC3#8 3
    ∧ exec (.jmp x) s = .next { s with pc := x }
    ∧ encode .pchl = [0xE9#8]
    ∧ exec .pchl s = .next { s with pc := BitVec.ofNat 16 (256 * s.h.toNat + s.l.toNat) }
    ∧ ∀ (op : Byte) (jcc : Word → Instr) (bit : Nat) (val : Bool),
      (op, jcc, bit, val) ∈ conditionalJumps →
      encode (jcc x) = [op, highOf x, lowOf x] ∧ OperandFetchFaults op 3
      ∧ (s.flag.getLsbD bit = val → exec (jcc x) s = .next { s with pc := x })
      ∧ (s.flag.getLsbD bit ≠ val → CanAdvance s 3 → exec (jcc x) s = .next { s with pc := s.pc + 3 })
      ∧ (s.flag.getLsbD bit ≠ val → s.cfg.wrap16 = .fault → 0xFFFF < s.pc.toNat + 3 →
        exec (jcc x) s = .next (pcFault s op 3))

/-- R263, R264: CALL and the eight conditional calls; a call not taken touches no stack. -/
def Obligations.CallsPushTheReturnAddress : Prop :=
  ∀ (x : Word) (s : State),
    encode (.call x) = [0xCD#8, highOf x, lowOf x] ∧ OperandFetchFaults 0xCD#8 3
    ∧ CallsTo (.call x) s 0xCD#8 3 x
    ∧ ∀ (op : Byte) (ccc : Word → Instr) (bit : Nat) (val : Bool),
      (op, ccc, bit, val) ∈ conditionalCalls →
      encode (ccc x) = [op, highOf x, lowOf x] ∧ OperandFetchFaults op 3
      ∧ (s.flag.getLsbD bit = val → CallsTo (ccc x) s op 3 x)
      ∧ (s.flag.getLsbD bit ≠ val → CanAdvance s 3 → exec (ccc x) s = .next { s with pc := s.pc + 3 })
      ∧ (s.flag.getLsbD bit ≠ val → s.cfg.wrap16 = .fault → 0xFFFF < s.pc.toNat + 3 →
        exec (ccc x) s = .next (pcFault s op 3))

/-- R265, R266: RET and the eight conditional returns; a return not taken touches no stack. -/
def Obligations.ReturnsPopPC : Prop :=
  ∀ s : State, encode .ret = [0xC9#8] ∧ ReturnsFrom .ret s 0xC9#8
    ∧ ∀ (op : Byte) (rcc : Instr) (bit : Nat) (val : Bool),
      (op, rcc, bit, val) ∈ conditionalReturns →
      encode rcc = [op]
      ∧ (s.flag.getLsbD bit = val → ReturnsFrom rcc s op)
      ∧ (s.flag.getLsbD bit ≠ val → CanAdvance s 1 → exec rcc s = .next { s with pc := s.pc + 1 })
      ∧ (s.flag.getLsbD bit ≠ val → s.cfg.wrap16 = .fault → s.pc.toNat = 0xFFFF →
        exec rcc s = .next (pcFault s op 1))

/-- R267: RST n calls n * 8 with the address after it when `RST_PUSHES` is true, and only jumps there when it is false. The push is the spec's own decision D10. -/
def Obligations.RstCallsItsVector : Prop :=
  ∀ (n : BitVec 3) (s : State),
    let op : Byte := BitVec.ofNat 8 (0xC7 + 8 * n.toNat)
    encode (.rst n) = [op]
    ∧ (s.cfg.rstPushes = true → CallsTo (.rst n) s op 1 (BitVec.ofNat 16 (8 * n.toNat)))
    ∧ (s.cfg.rstPushes = false →
      exec (.rst n) s = .next { s with pc := BitVec.ofNat 16 (8 * n.toNat) })

/-- R269: HLT sets the halt latch and PC is one past it; at 0xFFFF it faults when `WRAP16 = Fault`. -/
def Obligations.HltSetsTheHaltLatch : Prop :=
  ∀ s : State, encode .hlt = [0x76#8]
    ∧ (CanAdvance s 1 → exec .hlt s = .next { s with isHalted := true, pc := s.pc + 1 })
    ∧ (s.cfg.wrap16 = .fault → s.pc.toNat = 0xFFFF → exec .hlt s = .next (pcFault s 0x76#8 1))

/-! ### Unimplemented and unlisted instructions -/

/-- R290: DAA takes `NotImplemented` when `DAA_MODE = Fault`, and adjusts A when it is `Datasheet`. Both are the spec's own decisions (D11, D29). -/
def Obligations.DaaFollowsItsMode : Prop :=
  ∀ s : State,
    let low := if 9 < s.a.toNat % 16 ∨ s.flag.getLsbD 4 = true then 0x06 else 0x00
    let carry := decide (0x99 < s.a.toNat) || s.flag.getLsbD 0
    let sum := s.a.toNat + low + (if carry = true then 0x60 else 0x00)
    encode .daa = [0x27#8]
    ∧ (s.cfg.daaMode = .fault → exec .daa s = .next (latched s .notImplemented 2 0x27#8 .none))
    ∧ (s.cfg.daaMode = .datasheet → CanAdvance s 1 → exec .daa s = .next { s with
        a := BitVec.ofNat 8 sum
        flag := resultByte s.flag (sum % 256) (decide (15 < s.a.toNat % 16 + low)) carry
        pc := s.pc + 1 })

/-- R291, R292: IN and OUT take `NotImplemented` when `IO_MODE = Fault`, and move A from and to the port when it is `Datasheet`. Both are the spec's own decisions (D11, D29). -/
def Obligations.InAndOutFollowTheirMode : Prop :=
  ∀ (p : Byte) (s : State),
    encode (.inp p) = [0xDB#8, p] ∧ OperandFetchFaults 0xDB#8 2
    ∧ encode (.out p) = [0xD3#8, p] ∧ OperandFetchFaults 0xD3#8 2
    ∧ (s.cfg.ioMode = .fault →
      exec (.inp p) s = .next (latched s .notImplemented 2 0xDB#8 .none)
      ∧ exec (.out p) s = .next (latched s .notImplemented 2 0xD3#8 .none))
    ∧ (s.cfg.ioMode = .datasheet → CanAdvance s 2 →
      exec (.inp p) s = .next { s with a := portRead s p, pc := s.pc + 2 }
      ∧ ∃ t, exec (.out p) s = .next t ∧ t = { s with port := t.port, pc := s.pc + 2 }
        ∧ ∀ q, portRead t q = if q = p then s.a else portRead s q)

/-- R293 to R297: NOP changes only PC; EI, DI, RIM and SIM take `NotImplemented`, in every state. These are the spec's own decisions (D12, D13). -/
def Obligations.NopAndTheUnimplementedInstructions : Prop :=
  encode .nop = [0x00#8] ∧ encode .ei = [0xFB#8] ∧ encode .di = [0xF3#8] ∧ encode .rim = [0x20#8]
  ∧ encode .sim = [0x30#8]
  ∧ ∀ s : State,
    (CanAdvance s 1 → exec .nop s = .next { s with pc := s.pc + 1 })
    ∧ exec .ei s = .next (latched s .notImplemented 2 0xFB#8 .none)
    ∧ exec .di s = .next (latched s .notImplemented 2 0xF3#8 .none)
    ∧ exec .rim s = .next (latched s .notImplemented 2 0x20#8 .none)
    ∧ exec .sim s = .next (latched s .notImplemented 2 0x30#8 .none)
end

