-- ==== Sys2Proof/Laws/Memory.lean ====
section
/-! SUPPORT. The laws of byte arrays: a read after a write, and that every operation keeps the canonical form. -/

namespace Sys2Proof.Machine

@[simp] theorem Memory.read_nil (x : Nat) : Memory.read [] x = unlistedByte := rfl

theorem Memory.read_cons (y : Nat) (v : Byte) (rest : Memory) (x : Nat) :
    Memory.read ((y, v) :: rest) x = if y = x then v else Memory.read rest x := rfl

@[simp] theorem Memory.erase_nil (x : Nat) : Memory.erase [] x = [] := rfl

theorem Memory.erase_cons (y : Nat) (v : Byte) (rest : Memory) (x : Nat) :
    Memory.erase ((y, v) :: rest) x
      = if y = x then Memory.erase rest x else (y, v) :: Memory.erase rest x := by
  by_cases hyx : y = x <;> simp [Memory.erase, hyx]

theorem Memory.read_erase_same (m : Memory) (x : Nat) :
    Memory.read (Memory.erase m x) x = unlistedByte := by
  induction m with
  | nil => rfl
  | cons cell rest ih =>
    obtain ⟨y, v⟩ := cell
    by_cases hyx : y = x <;> simp [Memory.erase_cons, Memory.read_cons, hyx, ih]

theorem Memory.read_erase_other (m : Memory) {x z : Nat} (hne : z ≠ x) :
    Memory.read (Memory.erase m x) z = Memory.read m z := by
  induction m with
  | nil => rfl
  | cons cell rest ih =>
    obtain ⟨y, v⟩ := cell
    by_cases hyx : y = x
    · subst hyx
      simp [Memory.erase_cons, Memory.read_cons, Ne.symm hne, ih]
    · simp [Memory.erase_cons, Memory.read_cons, hyx, ih]

theorem Memory.read_insert_erase_same (m : Memory) (x : Nat) (v : Byte) :
    Memory.read (Memory.insert x v (Memory.erase m x)) x = v := by
  induction m with
  | nil => simp [Memory.insert, Memory.read_cons]
  | cons cell rest ih =>
    obtain ⟨y, w⟩ := cell
    by_cases hyx : y = x
    · simp [Memory.erase_cons, hyx, ih]
    · by_cases hlt : x < y <;> simp [Memory.erase_cons, Memory.insert, Memory.read_cons, hyx, hlt, ih]

theorem Memory.read_insert_other (m : Memory) {x z : Nat} (v : Byte) (hne : z ≠ x) :
    Memory.read (Memory.insert x v m) z = Memory.read m z := by
  induction m with
  | nil => simp [Memory.insert, Memory.read_cons, Ne.symm hne]
  | cons cell rest ih =>
    obtain ⟨y, w⟩ := cell
    by_cases hlt : x < y <;> simp [Memory.insert, Memory.read_cons, hlt, Ne.symm hne, ih]

/-- A read at the place written gives the value written. -/
theorem Memory.read_write_same (m : Memory) (x : Nat) (v : Byte) :
    Memory.read (Memory.write m x v) x = v := by
  unfold Memory.write
  split
  · next hv => rw [Memory.read_erase_same, hv]
  · exact Memory.read_insert_erase_same m x v

/-- A write leaves every other place alone. -/
theorem Memory.read_write_other (m : Memory) {x z : Nat} (v : Byte) (hne : z ≠ x) :
    Memory.read (Memory.write m x v) z = Memory.read m z := by
  unfold Memory.write
  split
  · exact Memory.read_erase_other m hne
  · rw [Memory.read_insert_other _ v hne, Memory.read_erase_other m hne]

/-- Both cases of a read after a write. -/
theorem Memory.read_write (m : Memory) (x z : Nat) (v : Byte) :
    Memory.read (Memory.write m x v) z = if z = x then v else Memory.read m z := by
  split
  · next hzx => rw [hzx, Memory.read_write_same]
  · next hzx => exact Memory.read_write_other m v hzx

/-! ### The canonical form -/

theorem Memory.wfFrom_cons (size low y : Nat) (v : Byte) (rest : Memory) :
    Memory.wfFrom size low ((y, v) :: rest) = true
      ↔ low ≤ y ∧ y < size ∧ v ≠ unlistedByte ∧ Memory.wfFrom size (y + 1) rest = true := by
  simp [Memory.wfFrom, and_assoc]

theorem Memory.wfFrom_mono {size low low' : Nat} {m : Memory} (hle : low' ≤ low)
    (hm : Memory.wfFrom size low m = true) : Memory.wfFrom size low' m = true := by
  cases m with
  | nil => rfl
  | cons cell rest =>
    obtain ⟨y, v⟩ := cell
    rw [Memory.wfFrom_cons] at hm ⊢
    exact ⟨Nat.le_trans hle hm.1, hm.2⟩

theorem Memory.wfFrom_erase {size : Nat} {m : Memory} (x : Nat) {low : Nat}
    (hm : Memory.wfFrom size low m = true) : Memory.wfFrom size low (Memory.erase m x) = true := by
  induction m generalizing low with
  | nil => rfl
  | cons cell rest ih =>
    obtain ⟨y, v⟩ := cell
    rw [Memory.wfFrom_cons] at hm
    obtain ⟨hlow, hsize, hv, hrest⟩ := hm
    rw [Memory.erase_cons]
    split
    · exact Memory.wfFrom_mono (Nat.le_succ_of_le hlow) (ih hrest)
    · rw [Memory.wfFrom_cons]
      exact ⟨hlow, hsize, hv, ih hrest⟩

theorem Memory.wfFrom_insert_erase {size : Nat} {m : Memory} {x : Nat} {v : Byte} (hx : x < size)
    (hv : v ≠ unlistedByte) {low : Nat} (hlow : low ≤ x) (hm : Memory.wfFrom size low m = true) :
    Memory.wfFrom size low (Memory.insert x v (Memory.erase m x)) = true := by
  induction m generalizing low with
  | nil => simp [Memory.insert, Memory.wfFrom, hlow, hx, hv]
  | cons cell rest ih =>
    obtain ⟨y, w⟩ := cell
    rw [Memory.wfFrom_cons] at hm
    obtain ⟨hy, hsize, hw, hrest⟩ := hm
    rw [Memory.erase_cons]
    split
    · next hyx => exact ih hlow (Memory.wfFrom_mono (by omega) hrest)
    · next hyx =>
      unfold Memory.insert
      split
      · next hlt =>
        rw [Memory.wfFrom_cons, Memory.wfFrom_cons]
        exact ⟨hlow, hx, hv, hlt, hsize, hw, Memory.wfFrom_erase x hrest⟩
      · next hlt =>
        rw [Memory.wfFrom_cons]
        exact ⟨hy, hsize, hw, ih (by omega) hrest⟩

/-- A write below the size keeps the canonical form. -/
theorem Memory.wf_write {size : Nat} {m : Memory} {x : Nat} (v : Byte) (hx : x < size)
    (hm : Memory.wf size m = true) : Memory.wf size (Memory.write m x v) = true := by
  unfold Memory.write
  split
  · exact Memory.wfFrom_erase x hm
  · next hv => exact Memory.wfFrom_insert_erase hx hv (Nat.zero_le x) hm

/-- The memory of the reset state is in canonical form. -/
theorem Memory.wf_nil (size : Nat) : Memory.wf size [] = true := rfl

/-- `memWrite` keeps the canonical form of memory. -/
theorem memWrite_wf {s : State} (x : Word) (v : Byte) (hm : Memory.wf memorySize s.mem = true) :
    Memory.wf memorySize (memWrite s x v).mem = true :=
  Memory.wf_write v x.isLt hm

/-- `portWrite` keeps the canonical form of the ports. -/
theorem portWrite_wf {s : State} (p v : Byte) (hm : Memory.wf portCount s.port = true) :
    Memory.wf portCount (portWrite s p v).port = true :=
  Memory.wf_write v p.isLt hm

/-- A byte read after a byte write. -/
theorem memRead_memWrite (s : State) (x z : Word) (v : Byte) :
    memRead (memWrite s x v) z = if z = x then v else memRead s z := by
  simp [memRead, memWrite, Memory.read_write, BitVec.toNat_inj]

/-- A port read after a port write. -/
theorem portRead_portWrite (s : State) (p q v : Byte) :
    portRead (portWrite s p v) q = if q = p then v else portRead s q := by
  simp [portRead, portWrite, Memory.read_write, BitVec.toNat_inj]

end Sys2Proof.Machine
end

