-- ==== Sys2Proof/Laws/State.lean ====
section
/-! SUPPORT. One lemma per field per update of the state, so that no proof unfolds a record update. -/

namespace Sys2Proof.Machine

/-! ### memWrite, portWrite, takeFault -/

@[simp] theorem memWrite_cfg (s : State) (x : Word) (v : Byte) : (memWrite s x v).cfg = s.cfg := rfl
@[simp] theorem memWrite_a (s : State) (x : Word) (v : Byte) : (memWrite s x v).a = s.a := rfl
@[simp] theorem memWrite_b (s : State) (x : Word) (v : Byte) : (memWrite s x v).b = s.b := rfl
@[simp] theorem memWrite_c (s : State) (x : Word) (v : Byte) : (memWrite s x v).c = s.c := rfl
@[simp] theorem memWrite_d (s : State) (x : Word) (v : Byte) : (memWrite s x v).d = s.d := rfl
@[simp] theorem memWrite_e (s : State) (x : Word) (v : Byte) : (memWrite s x v).e = s.e := rfl
@[simp] theorem memWrite_h (s : State) (x : Word) (v : Byte) : (memWrite s x v).h = s.h := rfl
@[simp] theorem memWrite_l (s : State) (x : Word) (v : Byte) : (memWrite s x v).l = s.l := rfl
@[simp] theorem memWrite_flag (s : State) (x : Word) (v : Byte) : (memWrite s x v).flag = s.flag := rfl
@[simp] theorem memWrite_sp (s : State) (x : Word) (v : Byte) : (memWrite s x v).sp = s.sp := rfl
@[simp] theorem memWrite_pc (s : State) (x : Word) (v : Byte) : (memWrite s x v).pc = s.pc := rfl
@[simp] theorem memWrite_isHalted (s : State) (x : Word) (v : Byte) : (memWrite s x v).isHalted = s.isHalted := rfl
@[simp] theorem memWrite_fault (s : State) (x : Word) (v : Byte) : (memWrite s x v).fault = s.fault := rfl
@[simp] theorem memWrite_mem (s : State) (x : Word) (v : Byte) : (memWrite s x v).mem = Memory.write s.mem x.toNat v := rfl
@[simp] theorem memWrite_port (s : State) (x : Word) (v : Byte) : (memWrite s x v).port = s.port := rfl
@[simp] theorem portWrite_cfg (s : State) (p v : Byte) : (portWrite s p v).cfg = s.cfg := rfl
@[simp] theorem portWrite_a (s : State) (p v : Byte) : (portWrite s p v).a = s.a := rfl
@[simp] theorem portWrite_b (s : State) (p v : Byte) : (portWrite s p v).b = s.b := rfl
@[simp] theorem portWrite_c (s : State) (p v : Byte) : (portWrite s p v).c = s.c := rfl
@[simp] theorem portWrite_d (s : State) (p v : Byte) : (portWrite s p v).d = s.d := rfl
@[simp] theorem portWrite_e (s : State) (p v : Byte) : (portWrite s p v).e = s.e := rfl
@[simp] theorem portWrite_h (s : State) (p v : Byte) : (portWrite s p v).h = s.h := rfl
@[simp] theorem portWrite_l (s : State) (p v : Byte) : (portWrite s p v).l = s.l := rfl
@[simp] theorem portWrite_flag (s : State) (p v : Byte) : (portWrite s p v).flag = s.flag := rfl
@[simp] theorem portWrite_sp (s : State) (p v : Byte) : (portWrite s p v).sp = s.sp := rfl
@[simp] theorem portWrite_pc (s : State) (p v : Byte) : (portWrite s p v).pc = s.pc := rfl
@[simp] theorem portWrite_isHalted (s : State) (p v : Byte) : (portWrite s p v).isHalted = s.isHalted := rfl
@[simp] theorem portWrite_fault (s : State) (p v : Byte) : (portWrite s p v).fault = s.fault := rfl
@[simp] theorem portWrite_mem (s : State) (p v : Byte) : (portWrite s p v).mem = s.mem := rfl
@[simp] theorem portWrite_port (s : State) (p v : Byte) : (portWrite s p v).port = Memory.write s.port p.toNat v := rfl
@[simp] theorem takeFault_cfg (s : State) (op : Byte) (f : Raise) : (takeFault s op f).cfg = s.cfg := rfl
@[simp] theorem takeFault_a (s : State) (op : Byte) (f : Raise) : (takeFault s op f).a = s.a := rfl
@[simp] theorem takeFault_b (s : State) (op : Byte) (f : Raise) : (takeFault s op f).b = s.b := rfl
@[simp] theorem takeFault_c (s : State) (op : Byte) (f : Raise) : (takeFault s op f).c = s.c := rfl
@[simp] theorem takeFault_d (s : State) (op : Byte) (f : Raise) : (takeFault s op f).d = s.d := rfl
@[simp] theorem takeFault_e (s : State) (op : Byte) (f : Raise) : (takeFault s op f).e = s.e := rfl
@[simp] theorem takeFault_h (s : State) (op : Byte) (f : Raise) : (takeFault s op f).h = s.h := rfl
@[simp] theorem takeFault_l (s : State) (op : Byte) (f : Raise) : (takeFault s op f).l = s.l := rfl
@[simp] theorem takeFault_flag (s : State) (op : Byte) (f : Raise) : (takeFault s op f).flag = s.flag := rfl
@[simp] theorem takeFault_sp (s : State) (op : Byte) (f : Raise) : (takeFault s op f).sp = s.sp := rfl
@[simp] theorem takeFault_pc (s : State) (op : Byte) (f : Raise) : (takeFault s op f).pc = s.pc := rfl
@[simp] theorem takeFault_isHalted (s : State) (op : Byte) (f : Raise) : (takeFault s op f).isHalted = s.isHalted := rfl
@[simp] theorem takeFault_fault (s : State) (op : Byte) (f : Raise) : (takeFault s op f).fault = some (faultRecord s.pc op f) := rfl
@[simp] theorem takeFault_mem (s : State) (op : Byte) (f : Raise) : (takeFault s op f).mem = s.mem := rfl
@[simp] theorem takeFault_port (s : State) (op : Byte) (f : Raise) : (takeFault s op f).port = s.port := rfl

/-! ### writeOperand, writePair, writeStackPair: what no operand names is unchanged -/

@[simp] theorem writeOperand_cfg (s : State) (r : Operand8) (v : Byte) : (writeOperand s r v).cfg = s.cfg := by
  cases r <;> rfl
@[simp] theorem writeOperand_flag (s : State) (r : Operand8) (v : Byte) : (writeOperand s r v).flag = s.flag := by
  cases r <;> rfl
@[simp] theorem writeOperand_sp (s : State) (r : Operand8) (v : Byte) : (writeOperand s r v).sp = s.sp := by
  cases r <;> rfl
@[simp] theorem writeOperand_pc (s : State) (r : Operand8) (v : Byte) : (writeOperand s r v).pc = s.pc := by
  cases r <;> rfl
@[simp] theorem writeOperand_isHalted (s : State) (r : Operand8) (v : Byte) : (writeOperand s r v).isHalted = s.isHalted := by
  cases r <;> rfl
@[simp] theorem writeOperand_fault (s : State) (r : Operand8) (v : Byte) : (writeOperand s r v).fault = s.fault := by
  cases r <;> rfl
@[simp] theorem writeOperand_port (s : State) (r : Operand8) (v : Byte) : (writeOperand s r v).port = s.port := by
  cases r <;> rfl
@[simp] theorem writePair_cfg (s : State) (rp : Pair) (v : Word) : (writePair s rp v).cfg = s.cfg := by
  cases rp <;> rfl
@[simp] theorem writePair_a (s : State) (rp : Pair) (v : Word) : (writePair s rp v).a = s.a := by
  cases rp <;> rfl
@[simp] theorem writePair_flag (s : State) (rp : Pair) (v : Word) : (writePair s rp v).flag = s.flag := by
  cases rp <;> rfl
@[simp] theorem writePair_pc (s : State) (rp : Pair) (v : Word) : (writePair s rp v).pc = s.pc := by
  cases rp <;> rfl
@[simp] theorem writePair_isHalted (s : State) (rp : Pair) (v : Word) : (writePair s rp v).isHalted = s.isHalted := by
  cases rp <;> rfl
@[simp] theorem writePair_fault (s : State) (rp : Pair) (v : Word) : (writePair s rp v).fault = s.fault := by
  cases rp <;> rfl
@[simp] theorem writePair_mem (s : State) (rp : Pair) (v : Word) : (writePair s rp v).mem = s.mem := by
  cases rp <;> rfl
@[simp] theorem writePair_port (s : State) (rp : Pair) (v : Word) : (writePair s rp v).port = s.port := by
  cases rp <;> rfl
@[simp] theorem writeStackPair_cfg (s : State) (rp : StackPair) (v : Word) : (writeStackPair s rp v).cfg = s.cfg := by
  cases rp <;> rfl
@[simp] theorem writeStackPair_sp (s : State) (rp : StackPair) (v : Word) : (writeStackPair s rp v).sp = s.sp := by
  cases rp <;> rfl
@[simp] theorem writeStackPair_pc (s : State) (rp : StackPair) (v : Word) : (writeStackPair s rp v).pc = s.pc := by
  cases rp <;> rfl
@[simp] theorem writeStackPair_isHalted (s : State) (rp : StackPair) (v : Word) : (writeStackPair s rp v).isHalted = s.isHalted := by
  cases rp <;> rfl
@[simp] theorem writeStackPair_fault (s : State) (rp : StackPair) (v : Word) : (writeStackPair s rp v).fault = s.fault := by
  cases rp <;> rfl
@[simp] theorem writeStackPair_mem (s : State) (rp : StackPair) (v : Word) : (writeStackPair s rp v).mem = s.mem := by
  cases rp <;> rfl
@[simp] theorem writeStackPair_port (s : State) (rp : StackPair) (v : Word) : (writeStackPair s rp v).port = s.port := by
  cases rp <;> rfl

/-! ### The flag groups -/

@[simp] theorem setFlags_cfg (s : State) (x : AluOut) : (setFlags s x).cfg = s.cfg := rfl
@[simp] theorem setFlags_a (s : State) (x : AluOut) : (setFlags s x).a = s.a := rfl
@[simp] theorem setFlags_b (s : State) (x : AluOut) : (setFlags s x).b = s.b := rfl
@[simp] theorem setFlags_c (s : State) (x : AluOut) : (setFlags s x).c = s.c := rfl
@[simp] theorem setFlags_d (s : State) (x : AluOut) : (setFlags s x).d = s.d := rfl
@[simp] theorem setFlags_e (s : State) (x : AluOut) : (setFlags s x).e = s.e := rfl
@[simp] theorem setFlags_h (s : State) (x : AluOut) : (setFlags s x).h = s.h := rfl
@[simp] theorem setFlags_l (s : State) (x : AluOut) : (setFlags s x).l = s.l := rfl
@[simp] theorem setFlags_flag (s : State) (x : AluOut) : (setFlags s x).flag = withSZP (withAC (withCY s.flag x.cy) x.ac) x.res := rfl
@[simp] theorem setFlags_sp (s : State) (x : AluOut) : (setFlags s x).sp = s.sp := rfl
@[simp] theorem setFlags_pc (s : State) (x : AluOut) : (setFlags s x).pc = s.pc := rfl
@[simp] theorem setFlags_isHalted (s : State) (x : AluOut) : (setFlags s x).isHalted = s.isHalted := rfl
@[simp] theorem setFlags_fault (s : State) (x : AluOut) : (setFlags s x).fault = s.fault := rfl
@[simp] theorem setFlags_mem (s : State) (x : AluOut) : (setFlags s x).mem = s.mem := rfl
@[simp] theorem setFlags_port (s : State) (x : AluOut) : (setFlags s x).port = s.port := rfl
@[simp] theorem setAccumulator_cfg (s : State) (x : AluOut) : (setAccumulator s x).cfg = s.cfg := rfl
@[simp] theorem setAccumulator_a (s : State) (x : AluOut) : (setAccumulator s x).a = x.res := rfl
@[simp] theorem setAccumulator_b (s : State) (x : AluOut) : (setAccumulator s x).b = s.b := rfl
@[simp] theorem setAccumulator_c (s : State) (x : AluOut) : (setAccumulator s x).c = s.c := rfl
@[simp] theorem setAccumulator_d (s : State) (x : AluOut) : (setAccumulator s x).d = s.d := rfl
@[simp] theorem setAccumulator_e (s : State) (x : AluOut) : (setAccumulator s x).e = s.e := rfl
@[simp] theorem setAccumulator_h (s : State) (x : AluOut) : (setAccumulator s x).h = s.h := rfl
@[simp] theorem setAccumulator_l (s : State) (x : AluOut) : (setAccumulator s x).l = s.l := rfl
@[simp] theorem setAccumulator_flag (s : State) (x : AluOut) : (setAccumulator s x).flag = withSZP (withAC (withCY s.flag x.cy) x.ac) x.res := rfl
@[simp] theorem setAccumulator_sp (s : State) (x : AluOut) : (setAccumulator s x).sp = s.sp := rfl
@[simp] theorem setAccumulator_pc (s : State) (x : AluOut) : (setAccumulator s x).pc = s.pc := rfl
@[simp] theorem setAccumulator_isHalted (s : State) (x : AluOut) : (setAccumulator s x).isHalted = s.isHalted := rfl
@[simp] theorem setAccumulator_fault (s : State) (x : AluOut) : (setAccumulator s x).fault = s.fault := rfl
@[simp] theorem setAccumulator_mem (s : State) (x : AluOut) : (setAccumulator s x).mem = s.mem := rfl
@[simp] theorem setAccumulator_port (s : State) (x : AluOut) : (setAccumulator s x).port = s.port := rfl
@[simp] theorem setFlagsKeepCY_cfg (s : State) (x : AluOut) : (setFlagsKeepCY s x).cfg = s.cfg := rfl
@[simp] theorem setFlagsKeepCY_a (s : State) (x : AluOut) : (setFlagsKeepCY s x).a = s.a := rfl
@[simp] theorem setFlagsKeepCY_b (s : State) (x : AluOut) : (setFlagsKeepCY s x).b = s.b := rfl
@[simp] theorem setFlagsKeepCY_c (s : State) (x : AluOut) : (setFlagsKeepCY s x).c = s.c := rfl
@[simp] theorem setFlagsKeepCY_d (s : State) (x : AluOut) : (setFlagsKeepCY s x).d = s.d := rfl
@[simp] theorem setFlagsKeepCY_e (s : State) (x : AluOut) : (setFlagsKeepCY s x).e = s.e := rfl
@[simp] theorem setFlagsKeepCY_h (s : State) (x : AluOut) : (setFlagsKeepCY s x).h = s.h := rfl
@[simp] theorem setFlagsKeepCY_l (s : State) (x : AluOut) : (setFlagsKeepCY s x).l = s.l := rfl
@[simp] theorem setFlagsKeepCY_flag (s : State) (x : AluOut) : (setFlagsKeepCY s x).flag = withSZP (withAC s.flag x.ac) x.res := rfl
@[simp] theorem setFlagsKeepCY_sp (s : State) (x : AluOut) : (setFlagsKeepCY s x).sp = s.sp := rfl
@[simp] theorem setFlagsKeepCY_pc (s : State) (x : AluOut) : (setFlagsKeepCY s x).pc = s.pc := rfl
@[simp] theorem setFlagsKeepCY_isHalted (s : State) (x : AluOut) : (setFlagsKeepCY s x).isHalted = s.isHalted := rfl
@[simp] theorem setFlagsKeepCY_fault (s : State) (x : AluOut) : (setFlagsKeepCY s x).fault = s.fault := rfl
@[simp] theorem setFlagsKeepCY_mem (s : State) (x : AluOut) : (setFlagsKeepCY s x).mem = s.mem := rfl
@[simp] theorem setFlagsKeepCY_port (s : State) (x : AluOut) : (setFlagsKeepCY s x).port = s.port := rfl
@[simp] theorem setRotate_cfg (s : State) (v : Byte) (cy : Bool) : (setRotate s v cy).cfg = s.cfg := rfl
@[simp] theorem setRotate_a (s : State) (v : Byte) (cy : Bool) : (setRotate s v cy).a = v := rfl
@[simp] theorem setRotate_b (s : State) (v : Byte) (cy : Bool) : (setRotate s v cy).b = s.b := rfl
@[simp] theorem setRotate_c (s : State) (v : Byte) (cy : Bool) : (setRotate s v cy).c = s.c := rfl
@[simp] theorem setRotate_d (s : State) (v : Byte) (cy : Bool) : (setRotate s v cy).d = s.d := rfl
@[simp] theorem setRotate_e (s : State) (v : Byte) (cy : Bool) : (setRotate s v cy).e = s.e := rfl
@[simp] theorem setRotate_h (s : State) (v : Byte) (cy : Bool) : (setRotate s v cy).h = s.h := rfl
@[simp] theorem setRotate_l (s : State) (v : Byte) (cy : Bool) : (setRotate s v cy).l = s.l := rfl
@[simp] theorem setRotate_flag (s : State) (v : Byte) (cy : Bool) : (setRotate s v cy).flag = withCY s.flag cy := rfl
@[simp] theorem setRotate_sp (s : State) (v : Byte) (cy : Bool) : (setRotate s v cy).sp = s.sp := rfl
@[simp] theorem setRotate_pc (s : State) (v : Byte) (cy : Bool) : (setRotate s v cy).pc = s.pc := rfl
@[simp] theorem setRotate_isHalted (s : State) (v : Byte) (cy : Bool) : (setRotate s v cy).isHalted = s.isHalted := rfl
@[simp] theorem setRotate_fault (s : State) (v : Byte) (cy : Bool) : (setRotate s v cy).fault = s.fault := rfl
@[simp] theorem setRotate_mem (s : State) (v : Byte) (cy : Bool) : (setRotate s v cy).mem = s.mem := rfl
@[simp] theorem setRotate_port (s : State) (v : Byte) (cy : Bool) : (setRotate s v cy).port = s.port := rfl

/-! ### Reading back what an operand wrote -/

/-- A register operand reads back the value written to it. -/
theorem readOperand_writeOperand_reg (s : State) (r : Operand8) (v : Byte) (hr : r ≠ .m) :
    readOperand (writeOperand s r v) r = v := by
  cases r <;> first | rfl | exact absurd rfl hr

end Sys2Proof.Machine
end

