-- ==== Sys2Proof/Laws/Ops.lean ====
section
/-! SUPPORT. One lemma per shared operation that says everything it can do, and when it does not raise. -/

namespace Sys2Proof.Machine

/-! ### Bind and the outcomes of `commit` -/

@[simp] theorem bind_ok {α β : Type} (x : α) (f : α → Except Raise β) :
    ((Except.ok x : Except Raise α) >>= f) = f x := rfl

@[simp] theorem bind_error {α β : Type} (r : Raise) (f : α → Except Raise β) :
    ((Except.error r : Except Raise α) >>= f) = .error r := rfl

/-- A bind that succeeds: its first part did, and so did the rest. -/
theorem bind_eq_ok {α β : Type} {x : Except Raise α} {f : α → Except Raise β} {y : β}
    (h : (x >>= f) = .ok y) : ∃ v, x = .ok v ∧ f v = .ok y := by
  cases x with
  | ok v => exact ⟨v, rfl, h⟩
  | error r => cases h

/-- A bind that raises: its first part did, or the rest did. -/
theorem bind_eq_error {α β : Type} {x : Except Raise α} {f : α → Except Raise β} {r : Raise}
    (h : (x >>= f) = .error r) : x = .error r ∨ ∃ v, x = .ok v ∧ f v = .error r := by
  cases x with
  | ok v => exact .inr ⟨v, rfl, h⟩
  | error r' =>
    cases h
    exact .inl rfl

@[simp] theorem commit_ok (op : Byte) (s t : State) : commit op s (.ok t) = .next t := rfl

@[simp] theorem commit_error (op : Byte) (s : State) (f : Raise) :
    commit op s (.error f) = .next (takeFault s op f) := rfl

/-- Everything `commit` can do: commit the staged state, or take the fault from the state before. -/
theorem commit_next {op : Byte} {s t : State} {body : Except Raise State}
    (h : commit op s body = .next t) :
    body = .ok t ∨ ∃ f, body = .error f ∧ t = takeFault s op f := by
  cases body with
  | ok u =>
    cases h
    exact .inl rfl
  | error f =>
    cases h
    exact .inr ⟨f, rfl, rfl⟩

/-- `commit` always answers a next state. -/
theorem commit_answers (op : Byte) (s : State) (body : Except Raise State) :
    ∃ t, commit op s body = .next t := by
  cases body with
  | ok u => exact ⟨u, rfl⟩
  | error f => exact ⟨_, rfl⟩

/-! ### Checked addresses and registers -/

/-- An integer in range, as a word, is itself. -/
theorem ofInt_natCast (n : Nat) : BitVec.ofInt 16 (n : Int) = BitVec.ofNat 16 n := by
  apply BitVec.eq_of_toNat_eq
  simp

theorem a16_ok {cfg : Config} {x : Int} (hx : cfg.wrap16 = .wrap ∨ (0 ≤ x ∧ x ≤ 0xFFFF)) :
    a16 cfg x = .ok (BitVec.ofInt 16 x) := by
  unfold a16
  cases hw : cfg.wrap16 with
  | wrap => rfl
  | fault =>
    have hr : 0 ≤ x ∧ x ≤ 0xFFFF := by simpa [hw] using hx
    simp [hr]

theorem v16_ok {cfg : Config} {r : WideReg} {x : Int}
    (hx : cfg.wrap16 = .wrap ∨ (0 ≤ x ∧ x ≤ 0xFFFF)) : v16 cfg r x = .ok (BitVec.ofInt 16 x) := by
  unfold v16
  cases hw : cfg.wrap16 with
  | wrap => rfl
  | fault =>
    have hr : 0 ≤ x ∧ x ≤ 0xFFFF := by simpa [hw] using hx
    simp [hr]

theorem a16_raises {cfg : Config} {x : Int} (hw : cfg.wrap16 = .fault) (hx : x < 0 ∨ 0xFFFF < x) :
    a16 cfg x = .error (.addressOutOfBounds x) := by
  have hr : ¬(0 ≤ x ∧ x ≤ 0xFFFF) := by omega
  simp [a16, hw, hr]

theorem v16_raises {cfg : Config} {r : WideReg} {x : Int} (hw : cfg.wrap16 = .fault)
    (hx : x < 0 ∨ 0xFFFF < x) : v16 cfg r x = .error (.registerOutOfRange r x) := by
  have hr : ¬(0 ≤ x ∧ x ≤ 0xFFFF) := by omega
  simp [v16, hw, hr]

/-- Everything `A16` can do. -/
theorem a16_cases (cfg : Config) (x : Int) :
    a16 cfg x = .ok (BitVec.ofInt 16 x)
      ∨ (cfg.wrap16 = .fault ∧ (x < 0 ∨ 0xFFFF < x) ∧ a16 cfg x = .error (.addressOutOfBounds x)) := by
  cases hw : cfg.wrap16 with
  | wrap => exact .inl (a16_ok (.inl hw))
  | fault =>
    by_cases hx : 0 ≤ x ∧ x ≤ 0xFFFF
    · exact .inl (a16_ok (.inr hx))
    · have hout : x < 0 ∨ 0xFFFF < x := by omega
      exact .inr ⟨rfl, hout, a16_raises hw hout⟩

/-- Everything `V16` can do. -/
theorem v16_cases (cfg : Config) (r : WideReg) (x : Int) :
    v16 cfg r x = .ok (BitVec.ofInt 16 x)
      ∨ (cfg.wrap16 = .fault ∧ (x < 0 ∨ 0xFFFF < x)
          ∧ v16 cfg r x = .error (.registerOutOfRange r x)) := by
  cases hw : cfg.wrap16 with
  | wrap => exact .inl (v16_ok (.inl hw))
  | fault =>
    by_cases hx : 0 ≤ x ∧ x ≤ 0xFFFF
    · exact .inl (v16_ok (.inr hx))
    · have hout : x < 0 ∨ 0xFFFF < x := by omega
      exact .inr ⟨rfl, hout, v16_raises hw hout⟩

/-- A word plus an offset, taken as an integer and narrowed, is the sum of words. -/
theorem ofInt_toNat_add (x : Word) (n : Int) :
    BitVec.ofInt 16 ((x.toNat : Int) + n) = x + BitVec.ofInt 16 n := by
  apply BitVec.eq_of_toNat_eq
  simp only [BitVec.toNat_ofInt, BitVec.toNat_add]
  omega

theorem ofInt_toNat (x : Word) : BitVec.ofInt 16 (x.toNat : Int) = x := by
  rw [ofInt_natCast]
  simp

/-! ### The PC advance -/

theorem pcAfter_ok {s : State} {n : Nat} (h : CanAdvance s n) :
    pcAfter s n = .ok (s.pc + BitVec.ofNat 16 n) := by
  unfold pcAfter
  rw [v16_ok (h.imp id (fun hle => by omega)), ofInt_toNat_add, ofInt_natCast]

theorem pcAfter_raises {s : State} {n : Nat} (hw : s.cfg.wrap16 = .fault)
    (hn : 0xFFFF < s.pc.toNat + n) :
    pcAfter s n = .error (.registerOutOfRange .pc (s.pc.toNat + n)) :=
  v16_raises hw (by omega)

theorem advance_ok {t : State} {n : Nat} (h : CanAdvance t n) :
    advance n t = .ok { t with pc := t.pc + BitVec.ofNat 16 n } := by
  simp [advance, pcAfter_ok h]

theorem advance_raises {t : State} {n : Nat} (hw : t.cfg.wrap16 = .fault)
    (hn : 0xFFFF < t.pc.toNat + n) :
    advance n t = .error (.registerOutOfRange .pc (t.pc.toNat + n)) := by
  simp [advance, pcAfter_raises hw hn]

/-- An advance that succeeds changes PC only. -/
theorem advance_eq_ok {t u : State} {n : Nat} (h : advance n t = .ok u) :
    u = { t with pc := u.pc } := by
  obtain ⟨p, -, hp⟩ := bind_eq_ok h
  cases hp
  rfl

/-- A sequential instruction whose body gives a state that keeps PC and the configuration. -/
theorem sequential_ok {i : Instr} {s t : State} {body : Except Raise State} (hbody : body = .ok t)
    (hcfg : t.cfg = s.cfg) (hpc : t.pc = s.pc) (h : CanAdvance s (instrLength i)) :
    sequential i s body = .next { t with pc := s.pc + BitVec.ofNat 16 (instrLength i) } := by
  have ht : CanAdvance t (instrLength i) := by
    unfold CanAdvance
    rw [hcfg, hpc]
    exact h
  simp [sequential, hbody, advance_ok ht, hpc]

/-- The same instruction when its PC advance is out of range: only the fault is taken. -/
theorem sequential_raises_pc {i : Instr} {s t : State} {body : Except Raise State}
    (hbody : body = .ok t) (hcfg : t.cfg = s.cfg) (hpc : t.pc = s.pc)
    (hw : s.cfg.wrap16 = .fault) (hn : 0xFFFF < s.pc.toNat + instrLength i) :
    sequential i s body
      = .next (takeFault s (opcodeByte i)
          (.registerOutOfRange .pc (s.pc.toNat + instrLength i))) := by
  have hadv := advance_raises (t := t) (n := instrLength i) (by rw [hcfg]; exact hw)
    (by rw [hpc]; exact hn)
  simp [sequential, hbody, hadv, hpc]

/-- A sequential instruction whose body raises takes that fault. -/
theorem sequential_raises {i : Instr} {s : State} {f : Raise} {body : Except Raise State}
    (hbody : body = .error f) :
    sequential i s body = .next (takeFault s (opcodeByte i) f) := by
  simp [sequential, hbody]

/-! ### Data words and the stack -/

theorem read16_ok {s : State} {x : Word} (h : WordFits s x) :
    read16 s x.toNat = .ok (joinWord s.cfg (memRead s x) (memRead s (x + 1))) := by
  unfold read16
  rw [a16_ok (h.imp id (fun _ => by omega)), a16_ok (h.imp id (fun _ => by omega)), ofInt_toNat,
    ofInt_toNat_add]
  rfl

theorem write16_ok {s : State} {x : Word} (v : Word) (h : WordFits s x) :
    write16 s x.toNat v
      = .ok (memWrite (memWrite s x (lowerByte s.cfg v)) (x + 1) (upperByte s.cfg v)) := by
  unfold write16
  rw [a16_ok (h.imp id (fun _ => by omega)), a16_ok (h.imp id (fun _ => by omega)), ofInt_toNat,
    ofInt_toNat_add]
  rfl

/-- A word write that succeeds changes memory only. -/
theorem write16_eq_ok {s t : State} {x : Int} {v : Word} (h : write16 s x v = .ok t) :
    ∃ a0 a1 : Word, t = memWrite (memWrite s a0 (lowerByte s.cfg v)) a1 (upperByte s.cfg v) := by
  obtain ⟨a0, -, h⟩ := bind_eq_ok h
  obtain ⟨a1, -, h⟩ := bind_eq_ok h
  cases h
  exact ⟨a0, a1, rfl⟩

/-- The bytes of a 16-bit value, put together again. -/
@[simp] theorem concat_hiByte_loByte (v : Word) : concat (hiByte v) (loByte v) = v := by
  apply BitVec.eq_of_getLsbD_eq
  intro k hk
  simp only [concat, hiByte, loByte, BitVec.getLsbD_append, BitVec.getLsbD_extractLsb']
  by_cases h8 : k < 8
  · simp [h8]
  · have hk8 : k - 8 < 8 := by omega
    have hk' : 8 + (k - 8) = k := by omega
    simp [h8, hk8, hk']

@[simp] theorem hiByte_concat (x y : Byte) : hiByte (concat x y) = x := by
  apply BitVec.eq_of_getLsbD_eq
  intro k hk
  simp only [concat, hiByte, BitVec.getLsbD_append, BitVec.getLsbD_extractLsb']
  simp [hk]

@[simp] theorem loByte_concat (x y : Byte) : loByte (concat x y) = y := by
  apply BitVec.eq_of_getLsbD_eq
  intro k hk
  simp only [concat, loByte, BitVec.getLsbD_append, BitVec.getLsbD_extractLsb']
  simp [hk]

/-- A word that is read back from its two bytes is the word. -/
theorem joinWord_bytes (cfg : Config) (v : Word) :
    joinWord cfg (lowerByte cfg v) (upperByte cfg v) = v := by
  cases hw : cfg.dataWordOrder <;> simp [joinWord, lowerByte, upperByte, hw]

theorem ofInt_sp_sub (x : Word) (n : Nat) :
    BitVec.ofInt 16 ((x.toNat : Int) - n) = x - BitVec.ofNat 16 n := by
  rw [Int.sub_eq_add_neg, ofInt_toNat_add, BitVec.ofInt_neg, ofInt_natCast, BitVec.sub_eq_add_neg]

/-- A push that has room (R15). -/
theorem push16_ok {s : State} (v : Word) (h : CanPush s) :
    push16 s v = .ok { memWrite (memWrite s (s.sp - 2) (lowerByte s.cfg v)) (s.sp - 1)
        (upperByte s.cfg v) with sp := s.sp - 2 } := by
  have hlt := s.sp.isLt
  have h2 : BitVec.ofInt 16 ((s.sp.toNat : Int) - 2) = s.sp - 2 := ofInt_sp_sub s.sp 2
  have h1 : BitVec.ofInt 16 ((s.sp.toNat : Int) - 2 + 1) = s.sp - 1 := by
    rw [show (s.sp.toNat : Int) - 2 + 1 = (s.sp.toNat : Int) - (1 : Nat) by omega]
    exact ofInt_sp_sub s.sp 1
  unfold push16 write16
  simp only [bind_assoc]
  rw [a16_ok (h.imp id (fun _ => by omega)), a16_ok (h.imp id (fun _ => by omega)),
    v16_ok (h.imp id (fun _ => by omega)), h1, h2]
  rfl

theorem push16_raises {s : State} (v : Word) (hw : s.cfg.wrap16 = .fault) (h : s.sp.toNat < 2) :
    push16 s v = .error (.addressOutOfBounds (s.sp.toNat - 2)) := by
  simp [push16, write16, a16_raises hw (x := (s.sp.toNat : Int) - 2) (by omega)]

/-- A push that succeeds changes memory and SP only. -/
theorem push16_eq_ok {s t : State} {v : Word} (h : push16 s v = .ok t) :
    ∃ a0 a1 : Word, t = { memWrite (memWrite s a0 (lowerByte s.cfg v)) a1 (upperByte s.cfg v) with
      sp := t.sp } := by
  obtain ⟨u, hu, h⟩ := bind_eq_ok h
  obtain ⟨sp, -, h⟩ := bind_eq_ok h
  obtain ⟨a0, a1, rfl⟩ := write16_eq_ok hu
  cases h
  exact ⟨a0, a1, rfl⟩

/-- A pop whose word and new SP are in range (R15). -/
theorem pop16_ok {s : State} (h : CanPop s) :
    pop16 s = .ok (joinWord s.cfg (memRead s s.sp) (memRead s (s.sp + 1)),
      { s with sp := s.sp + 2 }) := by
  have hfit : WordFits s s.sp := h.imp id (fun _ => by omega)
  have h2 : BitVec.ofInt 16 ((s.sp.toNat : Int) + 2) = s.sp + 2 := ofInt_toNat_add s.sp 2
  unfold pop16
  rw [read16_ok hfit, bind_ok, v16_ok (h.imp id (fun _ => by omega)), h2]
  rfl

theorem pop16_raises_address {s : State} (hw : s.cfg.wrap16 = .fault)
    (h : s.sp.toNat = 0xFFFF) : pop16 s = .error (.addressOutOfBounds 0x10000) := by
  have h0 : a16 s.cfg ((0xFFFF : Nat) : Int) = .ok _ := a16_ok (.inr (by omega))
  have h1 : a16 s.cfg (((0xFFFF : Nat) : Int) + 1) = .error _ := a16_raises hw (by omega)
  simp only [pop16, read16, h, h0, h1, bind_ok, bind_error]
  rfl

theorem pop16_raises_sp {s : State} (hw : s.cfg.wrap16 = .fault)
    (h : s.sp.toNat = 0xFFFE) : pop16 s = .error (.registerOutOfRange .sp 0x10000) := by
  have h0 : a16 s.cfg ((0xFFFE : Nat) : Int) = .ok _ := a16_ok (.inr (by omega))
  have h1 : a16 s.cfg (((0xFFFE : Nat) : Int) + 1) = .ok _ := a16_ok (.inr (by omega))
  have h2 : v16 s.cfg .sp (((0xFFFE : Nat) : Int) + 2) = .error _ := v16_raises hw (by omega)
  simp only [pop16, read16, h, h0, h1, h2, bind_ok, bind_error]
  rfl

/-- A pop that succeeds changes SP only. -/
theorem pop16_eq_ok {s t : State} {v : Word} (h : pop16 s = .ok (v, t)) :
    t = { s with sp := t.sp } := by
  obtain ⟨w, -, h⟩ := bind_eq_ok h
  obtain ⟨sp, -, h⟩ := bind_eq_ok h
  cases h
  rfl

end Sys2Proof.Machine
end

