-- ==== Sys2Proof/Laws/Operands.lean ====
section
/-! SUPPORT. What each operand form does when it is written, and which fields it keeps. -/

namespace Sys2Proof.Machine

/-- Writing a register operand writes that register alone (R103). -/
theorem writeOperand_reg (s : State) {r : Operand8} (v : Byte) (h : r ≠ .m) :
    writeOperand s r v = assignReg s r v := by
  cases r <;> first | rfl | exact absurd rfl h

/-- The two bytes of a 16-bit value, as an encoding has them (R9). -/
theorem hiByte_eq (v : Word) : hiByte v = highOf v := by
  apply BitVec.eq_of_toNat_eq
  simp [hiByte, highOf, BitVec.extractLsb'_toNat, Nat.shiftRight_eq_div_pow]

theorem loByte_eq (v : Word) : loByte v = lowOf v := by
  apply BitVec.eq_of_toNat_eq
  simp [loByte, lowOf, BitVec.extractLsb'_toNat]

/-- INX and DCX of a pair, which cannot raise (R43). -/
theorem stepPair_pair (s : State) {rp : Pair} (delta : Int) (h : rp ≠ .sp) :
    stepPair s rp delta = .ok (writePair s rp (readPair s rp + BitVec.ofInt 16 delta)) := by
  cases rp <;> first | rfl | exact absurd rfl h

/-- INX and DCX of SP, in range (R45). -/
theorem stepPair_sp {s : State} {delta : Int}
    (h : s.cfg.wrap16 = .wrap ∨ (0 ≤ s.sp.toNat + delta ∧ s.sp.toNat + delta ≤ 0xFFFF)) :
    stepPair s .sp delta = .ok { s with sp := s.sp + BitVec.ofInt 16 delta } := by
  unfold stepPair
  simp only
  rw [v16_ok h, bind_ok, ofInt_toNat_add]

/-- INX and DCX of SP, out of range (R45). -/
theorem stepPair_raises {s : State} {delta : Int} (hw : s.cfg.wrap16 = .fault)
    (h : s.sp.toNat + delta < 0 ∨ 0xFFFF < s.sp.toNat + delta) :
    stepPair s .sp delta = .error (.registerOutOfRange .sp (s.sp.toNat + delta)) := by
  unfold stepPair
  simp only
  rw [v16_raises hw h, bind_error]

/-! ### Bytes and words stored -/

/-- A state whose memory is that of a byte write stores that byte. -/
theorem storesByte_of_mem {s t : State} {x : Word} {v : Byte} (h : t.mem = (memWrite s x v).mem) :
    StoresByte s t x v := by
  intro y
  rw [← memRead_memWrite]
  unfold memRead
  rw [h]

/-- A state whose memory is that of a word write stores that word (R14). -/
theorem storesWord_of_mem {s t : State} {x : Word} {hi lo : Byte}
    (h : t.mem = (memWrite (memWrite s x (lowerByte s.cfg (concat hi lo))) (x + 1)
      (upperByte s.cfg (concat hi lo))).mem) : StoresWord s t x hi lo := by
  intro y
  have hread : memRead t y = memRead (memWrite (memWrite s x (lowerByte s.cfg (concat hi lo))) (x + 1)
      (upperByte s.cfg (concat hi lo))) y := by
    unfold memRead
    rw [h]
  have hne : x ≠ x + 1 := by
    intro heq
    have := congrArg BitVec.toNat heq
    rw [BitVec.toNat_add, show (1 : Word).toNat = 1 from rfl] at this
    omega
  rw [hread, memRead_memWrite, memRead_memWrite]
  by_cases h1 : y = x
  · rw [if_neg (by rw [h1]; exact hne), if_pos h1, if_pos h1]
    cases hc : s.cfg.dataWordOrder <;> simp [lowerByte, hc]
  · rw [if_neg h1, if_neg h1]
    cases hc : s.cfg.dataWordOrder <;> simp [upperByte, hc]

/-- The data word read is the two bytes of `wordAt` (R14). -/
theorem joinWord_eq (s : State) (x : Word) :
    joinWord s.cfg (memRead s x) (memRead s (x + 1)) = concat (wordAt s x).1 (wordAt s x).2 := by
  unfold joinWord wordAt
  cases s.cfg.dataWordOrder <;> simp

end Sys2Proof.Machine
end

