-- ==== Sys2Proof/Laws/Control.lean ====
section
/-! SUPPORT. What a conditional transfer, a call and a return do, and when they raise; what the fetch gives. -/

namespace Sys2Proof.Machine

/-- A conditional transfer that is not taken is the PC advance (R261, R264, R266). -/
theorem jumpIf_not {s : State} {cc : Cond} (x : Word) (h : condHolds s cc = false) :
    jumpIf s cc x = advance 3 s := by
  simp [jumpIf, h]

theorem callIf_not {s : State} {cc : Cond} (x : Word) (h : condHolds s cc = false) :
    callIf s cc x = advance 3 s := by
  simp [callIf, h]

theorem returnIf_not {s : State} {cc : Cond} (h : condHolds s cc = false) :
    returnIf s cc = advance 1 s := by
  simp [returnIf, h]

theorem jumpIf_taken {s : State} {cc : Cond} (x : Word) (h : condHolds s cc = true) :
    jumpIf s cc x = .ok { s with pc := x } := by
  simp [jumpIf, h]

theorem callIf_taken {s : State} {cc : Cond} (x : Word) (h : condHolds s cc = true) :
    callIf s cc x = callTo s 3 x := by
  simp [callIf, h]

theorem returnIf_taken {s : State} {cc : Cond} (h : condHolds s cc = true) :
    returnIf s cc = returnFrom s := by
  simp [returnIf, h]

/-- A call that can be made (R263). -/
theorem callTo_ok {s : State} {n : Nat} (x : Word) (h : CanAdvance s n) (hp : CanPush s) :
    callTo s n x = .ok { memWrite (memWrite s (s.sp - 2)
        (lowerByte s.cfg (s.pc + BitVec.ofNat 16 n))) (s.sp - 1)
        (upperByte s.cfg (s.pc + BitVec.ofNat 16 n)) with sp := s.sp - 2, pc := x } := by
  rw [callTo, pcAfter_ok h, bind_ok, push16_ok _ hp, bind_ok]

/-- A call whose return address is out of range (R263, R314). -/
theorem callTo_raises_pc {s : State} {n : Nat} (x : Word) (hw : s.cfg.wrap16 = .fault)
    (h : 0xFFFF < s.pc.toNat + n) :
    callTo s n x = .error (.registerOutOfRange .pc (s.pc.toNat + n)) := by
  rw [callTo, pcAfter_raises hw h, bind_error]

/-- A call whose push is out of range (R263, R313). -/
theorem callTo_raises_push {s : State} {n : Nat} (x : Word) (hw : s.cfg.wrap16 = .fault)
    (h : s.pc.toNat + n ≤ 0xFFFF) (hs : s.sp.toNat < 2) :
    callTo s n x = .error (.addressOutOfBounds (s.sp.toNat - 2)) := by
  rw [callTo, pcAfter_ok (.inr h), bind_ok, push16_raises _ hw hs, bind_error]

/-- A return that can be made (R265). -/
theorem returnFrom_ok {s : State} (h : CanPop s) :
    returnFrom s
      = .ok { s with sp := s.sp + 2, pc := concat (wordAt s s.sp).1 (wordAt s s.sp).2 } := by
  rw [returnFrom, pop16_ok h, bind_ok, joinWord_eq]

/-! ### The fetch -/

/-- An operand byte that has an address (R13). -/
theorem fetch8_ok {s : State} {k : Nat} (h : CanFetch s (k + 1)) :
    fetch8 s k = .ok (memRead s (s.pc + BitVec.ofNat 16 k)) := by
  unfold fetch8
  rw [a16_ok (h.imp id (fun _ => by omega)), bind_ok, ofInt_toNat_add, ofInt_natCast]

/-- An operand byte past 0xFFFF (R313). -/
theorem fetch8_raises {s : State} {k : Nat} (hw : s.cfg.wrap16 = .fault)
    (h : 0xFFFF < s.pc.toNat + k) :
    fetch8 s k = .error (.addressOutOfBounds (s.pc.toNat + k)) := by
  unfold fetch8
  rw [a16_raises hw (by omega), bind_error]

/-- A step with no fault latched (R354). -/
theorem step_running {s : State} (hf : s.fault = none) :
    step s = match fetch s with
      | .error f => .next (takeFault s (fetchOpcode s) f)
      | .ok i => exec i s := by
  unfold step
  split
  · next h =>
    rw [hf] at h
    cases h
  · rfl

/-- A step with a fault latched (R316). -/
theorem step_latched {s : State} {r : FaultRecord} (hf : s.fault = some r) :
    step s = .fault (.latched r) := by
  simp [step, hf]

end Sys2Proof.Machine
end

