-- ==== Sys2Proof/Laws/Flags.lean ====
section
/-! SUPPORT. What each flag operation does: FLAG bit by bit, and the results of `Add8` and `Sub8` as numbers. -/

namespace Sys2Proof.Machine

/-! ### FLAG bit by bit -/

/-- The set bit has its new value and every other bit its old one (R20). -/
theorem setBit_getLsbD (f : Byte) (i k : Nat) (x : Bool) (hk : k < 8) :
    (setBit f i x).getLsbD k = if k = i then x else f.getLsbD k := by
  unfold setBit
  by_cases h : k = i
  · subst h
    cases x <;> simp [hk]
  · have hne : k < i ∨ ¬ (k - i = 0) := by omega
    cases x <;> rcases hne with h1 | h1 <;> simp [hk, h, h1]

/-- FLAG written out has the bits it is written from (R47). -/
theorem flagByte_getLsbD (old : Byte) (sgn z ac p cy : Bool) (k : Nat) (hk : k < 8) :
    (flagByte old sgn z ac p cy).getLsbD k
      = [cy, old.getLsbD 1, p, old.getLsbD 3, ac, old.getLsbD 5, z, sgn].getD k false := by
  unfold flagByte
  generalize old.getLsbD 1 = x1
  generalize old.getLsbD 3 = x3
  generalize old.getLsbD 5 = x5
  have hcases : k = 0 ∨ k = 1 ∨ k = 2 ∨ k = 3 ∨ k = 4 ∨ k = 5 ∨ k = 6 ∨ k = 7 := by omega
  rcases hcases with rfl | rfl | rfl | rfl | rfl | rfl | rfl | rfl <;>
    (revert sgn z ac p cy x1 x3 x5; decide)

/-- `CY <- x` changes CY alone (R20). -/
theorem withCY_eq (f : Byte) (x : Bool) : withCY f x = carryByte f x := by
  apply BitVec.eq_of_getLsbD_eq
  intro k hk
  rw [withCY, setBit_getLsbD _ _ _ _ hk, carryByte, flagByte_getLsbD _ _ _ _ _ _ _ hk]
  have hcases : k = 0 ∨ k = 1 ∨ k = 2 ∨ k = 3 ∨ k = 4 ∨ k = 5 ∨ k = 6 ∨ k = 7 := by omega
  rcases hcases with rfl | rfl | rfl | rfl | rfl | rfl | rfl | rfl <;> rfl

set_option maxRecDepth 20000 in
/-- The sign bit of a byte is its value's upper half (R17). -/
theorem sign_eq (v : Byte) : v.getLsbD 7 = decide (128 ≤ v.toNat) := by
  have h : ∀ n, n < 256 →
      (BitVec.ofNat 8 n).getLsbD 7 = decide (128 ≤ (BitVec.ofNat 8 n).toNat) := by decide
  simpa using h v.toNat v.isLt

set_option maxRecDepth 20000 in
/-- The two ways of saying parity agree (R17). -/
theorem parity_eq (v : Byte) : parity v = evenOnes v := by
  have h : ∀ n, n < 256 → parity (BitVec.ofNat 8 n) = evenOnes (BitVec.ofNat 8 n) := by decide
  simpa using h v.toNat v.isLt

/-- The flags of addition, subtraction, compare and logic (R17 to R20). -/
theorem allFlags_eq (f v : Byte) (ac cy : Bool) :
    withSZP (withAC (withCY f cy) ac) v = resultByte f v.toNat ac cy := by
  apply BitVec.eq_of_getLsbD_eq
  intro k hk
  unfold withSZP withAC withCY
  simp only [setBit_getLsbD _ _ _ _ hk]
  rw [resultByte, flagByte_getLsbD _ _ _ _ _ _ _ hk, sign_eq, parity_eq]
  have hz : (v == 0x00#8) = decide (v.toNat = 0) := by
    rw [Bool.eq_iff_iff]
    simp [← BitVec.toNat_inj]
  have hcases : k = 0 ∨ k = 1 ∨ k = 2 ∨ k = 3 ∨ k = 4 ∨ k = 5 ∨ k = 6 ∨ k = 7 := by omega
  rcases hcases with rfl | rfl | rfl | rfl | rfl | rfl | rfl | rfl <;> simp [hz]

/-- The flags of INR and DCR: CY is the old one (R192 to R195). -/
theorem keptFlags_eq (f v : Byte) (ac : Bool) :
    withSZP (withAC f ac) v = resultByte f v.toNat ac (f.getLsbD 0) := by
  have hsame : withCY f (f.getLsbD 0) = f := by
    apply BitVec.eq_of_getLsbD_eq
    intro k hk
    rw [withCY, setBit_getLsbD _ _ _ _ hk]
    split
    · next h => rw [h]
    · rfl
  rw [← allFlags_eq, hsame]

/-! ### Addition and subtraction -/

/-- The result of `Add8` (R18). -/
theorem add8_res (x y : Byte) (c : Bool) :
    (add8 x y c).res.toNat = (x.toNat + y.toNat + c.toNat) % 256 := by
  simp [add8]

theorem differenceOf_lt (x y : Byte) (b : Nat) : differenceOf x y b < 256 :=
  Nat.mod_lt _ (by decide)

/-- The result of `Sub8` (R19). -/
theorem sub8_res (mode : AcSubMode) (x y : Byte) (c : Bool) :
    (sub8 mode x y c).res = BitVec.ofNat 8 (differenceOf x y c.toNat) := by
  apply BitVec.eq_of_toNat_eq
  have hx := x.isLt
  have hy := y.isLt
  have hc : c.toNat ≤ 1 := by cases c <;> decide
  simp only [sub8, differenceOf, BitVec.toNat_ofInt, BitVec.toNat_ofNat]
  omega

/-- The auxiliary carry of `Sub8` (R19). -/
theorem sub8_ac (cfg : Config) (x y : Byte) (c : Bool) :
    (sub8 cfg.acSubMode x y c).ac = borrowAC cfg x y c.toNat := by
  unfold borrowAC sub8
  cases cfg.acSubMode
  · rw [if_pos rfl]
  · rw [if_neg (by decide)]
    simp only [← decide_not]
    exact decide_eq_decide.mpr Nat.not_lt

/-- The borrow of `Sub8` (R19). -/
theorem sub8_cy (mode : AcSubMode) (x y : Byte) (c : Bool) :
    (sub8 mode x y c).cy = decide (x.toNat < y.toNat + c.toNat) := by
  have hx := x.isLt
  have hy := y.isLt
  have hc : c.toNat ≤ 1 := by cases c <;> decide
  simp only [sub8]
  congr 1
  apply propext
  omega

/-! ### The flag groups -/

/-- Everything `setFlags` does. -/
theorem setFlags_eq (s : State) (x : AluOut) :
    setFlags s x = { s with flag := resultByte s.flag x.res.toNat x.ac x.cy } := by
  simp only [setFlags, allFlags_eq]

/-- Everything `setAccumulator` does. -/
theorem setAccumulator_eq (s : State) (x : AluOut) :
    setAccumulator s x = { s with a := x.res, flag := resultByte s.flag x.res.toNat x.ac x.cy } := by
  simp only [setAccumulator, setFlags_eq]

/-- Everything `setFlagsKeepCY` does. -/
theorem setFlagsKeepCY_eq (s : State) (x : AluOut) :
    setFlagsKeepCY s x
      = { s with flag := resultByte s.flag x.res.toNat x.ac (s.flag.getLsbD 0) } := by
  simp only [setFlagsKeepCY, keptFlags_eq]

/-- Everything `setRotate` does. -/
theorem setRotate_eq (s : State) (v : Byte) (cy : Bool) :
    setRotate s v cy = { s with a := v, flag := carryByte s.flag cy } := by
  simp only [setRotate, withCY_eq]

end Sys2Proof.Machine
end

