-- ==== Sys2Proof/Laws/PerInstr.lean ====
section
/-! SUPPORT. Facts about every instruction as syntax, one lemma per constructor. -/

open Sys2Proof

/-- An instruction is its opcode byte and its operand bytes, one to three bytes long (30_encoding.md R100, R101). -/
def Sys2Proof.Laws.LengthInRange.Statement (i : Instr) : Prop :=
  instrLength i = 1 + (operandBytes i).length ∧ instrLength i ≤ 3

/-- It is enough that there are at most two operand bytes. -/
theorem Sys2Proof.Laws.lengthInRange_of_operands {i : Instr} (h : (operandBytes i).length ≤ 2) :
    Sys2Proof.Laws.LengthInRange.Statement i :=
  ⟨Nat.add_comm _ 1, Nat.succ_le_succ h⟩

theorem Sys2Proof.Laws.LengthInRange.nop :
    Sys2Proof.Laws.LengthInRange.Statement .nop :=
  Sys2Proof.Laws.lengthInRange_of_operands (Nat.le_of_ble_eq_true rfl)

theorem Sys2Proof.Laws.LengthInRange.lxi (rp : Pair) (d16 : Word) :
    Sys2Proof.Laws.LengthInRange.Statement (.lxi rp d16) :=
  Sys2Proof.Laws.lengthInRange_of_operands (Nat.le_of_ble_eq_true rfl)

theorem Sys2Proof.Laws.LengthInRange.stax (rp : IndexPair) :
    Sys2Proof.Laws.LengthInRange.Statement (.stax rp) :=
  Sys2Proof.Laws.lengthInRange_of_operands (Nat.le_of_ble_eq_true rfl)

theorem Sys2Proof.Laws.LengthInRange.inx (rp : Pair) :
    Sys2Proof.Laws.LengthInRange.Statement (.inx rp) :=
  Sys2Proof.Laws.lengthInRange_of_operands (Nat.le_of_ble_eq_true rfl)

theorem Sys2Proof.Laws.LengthInRange.inr (r : Operand8) :
    Sys2Proof.Laws.LengthInRange.Statement (.inr r) :=
  Sys2Proof.Laws.lengthInRange_of_operands (Nat.le_of_ble_eq_true rfl)

theorem Sys2Proof.Laws.LengthInRange.dcr (r : Operand8) :
    Sys2Proof.Laws.LengthInRange.Statement (.dcr r) :=
  Sys2Proof.Laws.lengthInRange_of_operands (Nat.le_of_ble_eq_true rfl)

theorem Sys2Proof.Laws.LengthInRange.mvi (r : Operand8) (d8 : Byte) :
    Sys2Proof.Laws.LengthInRange.Statement (.mvi r d8) :=
  Sys2Proof.Laws.lengthInRange_of_operands (Nat.le_of_ble_eq_true rfl)

theorem Sys2Proof.Laws.LengthInRange.rlc :
    Sys2Proof.Laws.LengthInRange.Statement .rlc :=
  Sys2Proof.Laws.lengthInRange_of_operands (Nat.le_of_ble_eq_true rfl)

theorem Sys2Proof.Laws.LengthInRange.undefined (op : Byte) :
    Sys2Proof.Laws.LengthInRange.Statement (.undefined op) :=
  Sys2Proof.Laws.lengthInRange_of_operands (Nat.le_of_ble_eq_true rfl)

theorem Sys2Proof.Laws.LengthInRange.dad (rp : Pair) :
    Sys2Proof.Laws.LengthInRange.Statement (.dad rp) :=
  Sys2Proof.Laws.lengthInRange_of_operands (Nat.le_of_ble_eq_true rfl)

theorem Sys2Proof.Laws.LengthInRange.ldax (rp : IndexPair) :
    Sys2Proof.Laws.LengthInRange.Statement (.ldax rp) :=
  Sys2Proof.Laws.lengthInRange_of_operands (Nat.le_of_ble_eq_true rfl)

theorem Sys2Proof.Laws.LengthInRange.dcx (rp : Pair) :
    Sys2Proof.Laws.LengthInRange.Statement (.dcx rp) :=
  Sys2Proof.Laws.lengthInRange_of_operands (Nat.le_of_ble_eq_true rfl)

theorem Sys2Proof.Laws.LengthInRange.rrc :
    Sys2Proof.Laws.LengthInRange.Statement .rrc :=
  Sys2Proof.Laws.lengthInRange_of_operands (Nat.le_of_ble_eq_true rfl)

theorem Sys2Proof.Laws.LengthInRange.ral :
    Sys2Proof.Laws.LengthInRange.Statement .ral :=
  Sys2Proof.Laws.lengthInRange_of_operands (Nat.le_of_ble_eq_true rfl)

theorem Sys2Proof.Laws.LengthInRange.rar :
    Sys2Proof.Laws.LengthInRange.Statement .rar :=
  Sys2Proof.Laws.lengthInRange_of_operands (Nat.le_of_ble_eq_true rfl)

theorem Sys2Proof.Laws.LengthInRange.rim :
    Sys2Proof.Laws.LengthInRange.Statement .rim :=
  Sys2Proof.Laws.lengthInRange_of_operands (Nat.le_of_ble_eq_true rfl)

theorem Sys2Proof.Laws.LengthInRange.shld (a16 : Word) :
    Sys2Proof.Laws.LengthInRange.Statement (.shld a16) :=
  Sys2Proof.Laws.lengthInRange_of_operands (Nat.le_of_ble_eq_true rfl)

theorem Sys2Proof.Laws.LengthInRange.daa :
    Sys2Proof.Laws.LengthInRange.Statement .daa :=
  Sys2Proof.Laws.lengthInRange_of_operands (Nat.le_of_ble_eq_true rfl)

theorem Sys2Proof.Laws.LengthInRange.lhld (a16 : Word) :
    Sys2Proof.Laws.LengthInRange.Statement (.lhld a16) :=
  Sys2Proof.Laws.lengthInRange_of_operands (Nat.le_of_ble_eq_true rfl)

theorem Sys2Proof.Laws.LengthInRange.cma :
    Sys2Proof.Laws.LengthInRange.Statement .cma :=
  Sys2Proof.Laws.lengthInRange_of_operands (Nat.le_of_ble_eq_true rfl)

theorem Sys2Proof.Laws.LengthInRange.sim :
    Sys2Proof.Laws.LengthInRange.Statement .sim :=
  Sys2Proof.Laws.lengthInRange_of_operands (Nat.le_of_ble_eq_true rfl)

theorem Sys2Proof.Laws.LengthInRange.sta (a16 : Word) :
    Sys2Proof.Laws.LengthInRange.Statement (.sta a16) :=
  Sys2Proof.Laws.lengthInRange_of_operands (Nat.le_of_ble_eq_true rfl)

theorem Sys2Proof.Laws.LengthInRange.stc :
    Sys2Proof.Laws.LengthInRange.Statement .stc :=
  Sys2Proof.Laws.lengthInRange_of_operands (Nat.le_of_ble_eq_true rfl)

theorem Sys2Proof.Laws.LengthInRange.lda (a16 : Word) :
    Sys2Proof.Laws.LengthInRange.Statement (.lda a16) :=
  Sys2Proof.Laws.lengthInRange_of_operands (Nat.le_of_ble_eq_true rfl)

theorem Sys2Proof.Laws.LengthInRange.cmc :
    Sys2Proof.Laws.LengthInRange.Statement .cmc :=
  Sys2Proof.Laws.lengthInRange_of_operands (Nat.le_of_ble_eq_true rfl)

theorem Sys2Proof.Laws.LengthInRange.mov (dst src : Operand8) :
    Sys2Proof.Laws.LengthInRange.Statement (.mov dst src) :=
  Sys2Proof.Laws.lengthInRange_of_operands (Nat.le_of_ble_eq_true rfl)

theorem Sys2Proof.Laws.LengthInRange.hlt :
    Sys2Proof.Laws.LengthInRange.Statement .hlt :=
  Sys2Proof.Laws.lengthInRange_of_operands (Nat.le_of_ble_eq_true rfl)

theorem Sys2Proof.Laws.LengthInRange.add (r : Operand8) :
    Sys2Proof.Laws.LengthInRange.Statement (.add r) :=
  Sys2Proof.Laws.lengthInRange_of_operands (Nat.le_of_ble_eq_true rfl)

theorem Sys2Proof.Laws.LengthInRange.adc (r : Operand8) :
    Sys2Proof.Laws.LengthInRange.Statement (.adc r) :=
  Sys2Proof.Laws.lengthInRange_of_operands (Nat.le_of_ble_eq_true rfl)

theorem Sys2Proof.Laws.LengthInRange.sub (r : Operand8) :
    Sys2Proof.Laws.LengthInRange.Statement (.sub r) :=
  Sys2Proof.Laws.lengthInRange_of_operands (Nat.le_of_ble_eq_true rfl)

theorem Sys2Proof.Laws.LengthInRange.sbb (r : Operand8) :
    Sys2Proof.Laws.LengthInRange.Statement (.sbb r) :=
  Sys2Proof.Laws.lengthInRange_of_operands (Nat.le_of_ble_eq_true rfl)

theorem Sys2Proof.Laws.LengthInRange.ana (r : Operand8) :
    Sys2Proof.Laws.LengthInRange.Statement (.ana r) :=
  Sys2Proof.Laws.lengthInRange_of_operands (Nat.le_of_ble_eq_true rfl)

theorem Sys2Proof.Laws.LengthInRange.xra (r : Operand8) :
    Sys2Proof.Laws.LengthInRange.Statement (.xra r) :=
  Sys2Proof.Laws.lengthInRange_of_operands (Nat.le_of_ble_eq_true rfl)

theorem Sys2Proof.Laws.LengthInRange.ora (r : Operand8) :
    Sys2Proof.Laws.LengthInRange.Statement (.ora r) :=
  Sys2Proof.Laws.lengthInRange_of_operands (Nat.le_of_ble_eq_true rfl)

theorem Sys2Proof.Laws.LengthInRange.cmp (r : Operand8) :
    Sys2Proof.Laws.LengthInRange.Statement (.cmp r) :=
  Sys2Proof.Laws.lengthInRange_of_operands (Nat.le_of_ble_eq_true rfl)

theorem Sys2Proof.Laws.LengthInRange.adi (d8 : Byte) :
    Sys2Proof.Laws.LengthInRange.Statement (.adi d8) :=
  Sys2Proof.Laws.lengthInRange_of_operands (Nat.le_of_ble_eq_true rfl)

theorem Sys2Proof.Laws.LengthInRange.aci (d8 : Byte) :
    Sys2Proof.Laws.LengthInRange.Statement (.aci d8) :=
  Sys2Proof.Laws.lengthInRange_of_operands (Nat.le_of_ble_eq_true rfl)

theorem Sys2Proof.Laws.LengthInRange.sui (d8 : Byte) :
    Sys2Proof.Laws.LengthInRange.Statement (.sui d8) :=
  Sys2Proof.Laws.lengthInRange_of_operands (Nat.le_of_ble_eq_true rfl)

theorem Sys2Proof.Laws.LengthInRange.sbi (d8 : Byte) :
    Sys2Proof.Laws.LengthInRange.Statement (.sbi d8) :=
  Sys2Proof.Laws.lengthInRange_of_operands (Nat.le_of_ble_eq_true rfl)

theorem Sys2Proof.Laws.LengthInRange.ani (d8 : Byte) :
    Sys2Proof.Laws.LengthInRange.Statement (.ani d8) :=
  Sys2Proof.Laws.lengthInRange_of_operands (Nat.le_of_ble_eq_true rfl)

theorem Sys2Proof.Laws.LengthInRange.xri (d8 : Byte) :
    Sys2Proof.Laws.LengthInRange.Statement (.xri d8) :=
  Sys2Proof.Laws.lengthInRange_of_operands (Nat.le_of_ble_eq_true rfl)

theorem Sys2Proof.Laws.LengthInRange.ori (d8 : Byte) :
    Sys2Proof.Laws.LengthInRange.Statement (.ori d8) :=
  Sys2Proof.Laws.lengthInRange_of_operands (Nat.le_of_ble_eq_true rfl)

theorem Sys2Proof.Laws.LengthInRange.cpi (d8 : Byte) :
    Sys2Proof.Laws.LengthInRange.Statement (.cpi d8) :=
  Sys2Proof.Laws.lengthInRange_of_operands (Nat.le_of_ble_eq_true rfl)

theorem Sys2Proof.Laws.LengthInRange.jmp (a16 : Word) :
    Sys2Proof.Laws.LengthInRange.Statement (.jmp a16) :=
  Sys2Proof.Laws.lengthInRange_of_operands (Nat.le_of_ble_eq_true rfl)

theorem Sys2Proof.Laws.LengthInRange.jnz (a16 : Word) :
    Sys2Proof.Laws.LengthInRange.Statement (.jnz a16) :=
  Sys2Proof.Laws.lengthInRange_of_operands (Nat.le_of_ble_eq_true rfl)

theorem Sys2Proof.Laws.LengthInRange.jz (a16 : Word) :
    Sys2Proof.Laws.LengthInRange.Statement (.jz a16) :=
  Sys2Proof.Laws.lengthInRange_of_operands (Nat.le_of_ble_eq_true rfl)

theorem Sys2Proof.Laws.LengthInRange.jnc (a16 : Word) :
    Sys2Proof.Laws.LengthInRange.Statement (.jnc a16) :=
  Sys2Proof.Laws.lengthInRange_of_operands (Nat.le_of_ble_eq_true rfl)

theorem Sys2Proof.Laws.LengthInRange.jc (a16 : Word) :
    Sys2Proof.Laws.LengthInRange.Statement (.jc a16) :=
  Sys2Proof.Laws.lengthInRange_of_operands (Nat.le_of_ble_eq_true rfl)

theorem Sys2Proof.Laws.LengthInRange.jpo (a16 : Word) :
    Sys2Proof.Laws.LengthInRange.Statement (.jpo a16) :=
  Sys2Proof.Laws.lengthInRange_of_operands (Nat.le_of_ble_eq_true rfl)

theorem Sys2Proof.Laws.LengthInRange.jpe (a16 : Word) :
    Sys2Proof.Laws.LengthInRange.Statement (.jpe a16) :=
  Sys2Proof.Laws.lengthInRange_of_operands (Nat.le_of_ble_eq_true rfl)

theorem Sys2Proof.Laws.LengthInRange.jp (a16 : Word) :
    Sys2Proof.Laws.LengthInRange.Statement (.jp a16) :=
  Sys2Proof.Laws.lengthInRange_of_operands (Nat.le_of_ble_eq_true rfl)

theorem Sys2Proof.Laws.LengthInRange.jm (a16 : Word) :
    Sys2Proof.Laws.LengthInRange.Statement (.jm a16) :=
  Sys2Proof.Laws.lengthInRange_of_operands (Nat.le_of_ble_eq_true rfl)

theorem Sys2Proof.Laws.LengthInRange.pchl :
    Sys2Proof.Laws.LengthInRange.Statement .pchl :=
  Sys2Proof.Laws.lengthInRange_of_operands (Nat.le_of_ble_eq_true rfl)

theorem Sys2Proof.Laws.LengthInRange.call (a16 : Word) :
    Sys2Proof.Laws.LengthInRange.Statement (.call a16) :=
  Sys2Proof.Laws.lengthInRange_of_operands (Nat.le_of_ble_eq_true rfl)

theorem Sys2Proof.Laws.LengthInRange.cnz (a16 : Word) :
    Sys2Proof.Laws.LengthInRange.Statement (.cnz a16) :=
  Sys2Proof.Laws.lengthInRange_of_operands (Nat.le_of_ble_eq_true rfl)

theorem Sys2Proof.Laws.LengthInRange.cz (a16 : Word) :
    Sys2Proof.Laws.LengthInRange.Statement (.cz a16) :=
  Sys2Proof.Laws.lengthInRange_of_operands (Nat.le_of_ble_eq_true rfl)

theorem Sys2Proof.Laws.LengthInRange.cnc (a16 : Word) :
    Sys2Proof.Laws.LengthInRange.Statement (.cnc a16) :=
  Sys2Proof.Laws.lengthInRange_of_operands (Nat.le_of_ble_eq_true rfl)

theorem Sys2Proof.Laws.LengthInRange.cc (a16 : Word) :
    Sys2Proof.Laws.LengthInRange.Statement (.cc a16) :=
  Sys2Proof.Laws.lengthInRange_of_operands (Nat.le_of_ble_eq_true rfl)

theorem Sys2Proof.Laws.LengthInRange.cpo (a16 : Word) :
    Sys2Proof.Laws.LengthInRange.Statement (.cpo a16) :=
  Sys2Proof.Laws.lengthInRange_of_operands (Nat.le_of_ble_eq_true rfl)

theorem Sys2Proof.Laws.LengthInRange.cpe (a16 : Word) :
    Sys2Proof.Laws.LengthInRange.Statement (.cpe a16) :=
  Sys2Proof.Laws.lengthInRange_of_operands (Nat.le_of_ble_eq_true rfl)

theorem Sys2Proof.Laws.LengthInRange.cp (a16 : Word) :
    Sys2Proof.Laws.LengthInRange.Statement (.cp a16) :=
  Sys2Proof.Laws.lengthInRange_of_operands (Nat.le_of_ble_eq_true rfl)

theorem Sys2Proof.Laws.LengthInRange.cm (a16 : Word) :
    Sys2Proof.Laws.LengthInRange.Statement (.cm a16) :=
  Sys2Proof.Laws.lengthInRange_of_operands (Nat.le_of_ble_eq_true rfl)

theorem Sys2Proof.Laws.LengthInRange.ret :
    Sys2Proof.Laws.LengthInRange.Statement .ret :=
  Sys2Proof.Laws.lengthInRange_of_operands (Nat.le_of_ble_eq_true rfl)

theorem Sys2Proof.Laws.LengthInRange.rnz :
    Sys2Proof.Laws.LengthInRange.Statement .rnz :=
  Sys2Proof.Laws.lengthInRange_of_operands (Nat.le_of_ble_eq_true rfl)

theorem Sys2Proof.Laws.LengthInRange.rz :
    Sys2Proof.Laws.LengthInRange.Statement .rz :=
  Sys2Proof.Laws.lengthInRange_of_operands (Nat.le_of_ble_eq_true rfl)

theorem Sys2Proof.Laws.LengthInRange.rnc :
    Sys2Proof.Laws.LengthInRange.Statement .rnc :=
  Sys2Proof.Laws.lengthInRange_of_operands (Nat.le_of_ble_eq_true rfl)

theorem Sys2Proof.Laws.LengthInRange.rc :
    Sys2Proof.Laws.LengthInRange.Statement .rc :=
  Sys2Proof.Laws.lengthInRange_of_operands (Nat.le_of_ble_eq_true rfl)

theorem Sys2Proof.Laws.LengthInRange.rpo :
    Sys2Proof.Laws.LengthInRange.Statement .rpo :=
  Sys2Proof.Laws.lengthInRange_of_operands (Nat.le_of_ble_eq_true rfl)

theorem Sys2Proof.Laws.LengthInRange.rpe :
    Sys2Proof.Laws.LengthInRange.Statement .rpe :=
  Sys2Proof.Laws.lengthInRange_of_operands (Nat.le_of_ble_eq_true rfl)

theorem Sys2Proof.Laws.LengthInRange.rp :
    Sys2Proof.Laws.LengthInRange.Statement .rp :=
  Sys2Proof.Laws.lengthInRange_of_operands (Nat.le_of_ble_eq_true rfl)

theorem Sys2Proof.Laws.LengthInRange.rm :
    Sys2Proof.Laws.LengthInRange.Statement .rm :=
  Sys2Proof.Laws.lengthInRange_of_operands (Nat.le_of_ble_eq_true rfl)

theorem Sys2Proof.Laws.LengthInRange.rst (n : BitVec 3) :
    Sys2Proof.Laws.LengthInRange.Statement (.rst n) :=
  Sys2Proof.Laws.lengthInRange_of_operands (Nat.le_of_ble_eq_true rfl)

theorem Sys2Proof.Laws.LengthInRange.push (rp : StackPair) :
    Sys2Proof.Laws.LengthInRange.Statement (.push rp) :=
  Sys2Proof.Laws.lengthInRange_of_operands (Nat.le_of_ble_eq_true rfl)

theorem Sys2Proof.Laws.LengthInRange.pop (rp : StackPair) :
    Sys2Proof.Laws.LengthInRange.Statement (.pop rp) :=
  Sys2Proof.Laws.lengthInRange_of_operands (Nat.le_of_ble_eq_true rfl)

theorem Sys2Proof.Laws.LengthInRange.xchg :
    Sys2Proof.Laws.LengthInRange.Statement .xchg :=
  Sys2Proof.Laws.lengthInRange_of_operands (Nat.le_of_ble_eq_true rfl)

theorem Sys2Proof.Laws.LengthInRange.sphl :
    Sys2Proof.Laws.LengthInRange.Statement .sphl :=
  Sys2Proof.Laws.lengthInRange_of_operands (Nat.le_of_ble_eq_true rfl)

theorem Sys2Proof.Laws.LengthInRange.xthl :
    Sys2Proof.Laws.LengthInRange.Statement .xthl :=
  Sys2Proof.Laws.lengthInRange_of_operands (Nat.le_of_ble_eq_true rfl)

theorem Sys2Proof.Laws.LengthInRange.inp (d8 : Byte) :
    Sys2Proof.Laws.LengthInRange.Statement (.inp d8) :=
  Sys2Proof.Laws.lengthInRange_of_operands (Nat.le_of_ble_eq_true rfl)

theorem Sys2Proof.Laws.LengthInRange.out (d8 : Byte) :
    Sys2Proof.Laws.LengthInRange.Statement (.out d8) :=
  Sys2Proof.Laws.lengthInRange_of_operands (Nat.le_of_ble_eq_true rfl)

theorem Sys2Proof.Laws.LengthInRange.ei :
    Sys2Proof.Laws.LengthInRange.Statement .ei :=
  Sys2Proof.Laws.lengthInRange_of_operands (Nat.le_of_ble_eq_true rfl)

theorem Sys2Proof.Laws.LengthInRange.di :
    Sys2Proof.Laws.LengthInRange.Statement .di :=
  Sys2Proof.Laws.lengthInRange_of_operands (Nat.le_of_ble_eq_true rfl)
end

