-- ==== Sys2Proof/Tests/Slice0.lean ====
section
/-! SUPPORT. Tests: ill-formed terms are refused, every constructor's decoding of a word written out from 30_encoding.md, one step of vectors of 95_test_vectors.md (named by their ids), and for each obligation with hypotheses a state that meets them. -/

namespace Sys2Proof.Tests

open Sys2Proof Sys2Proof.Machine

/-! ### Well-formedness -/

/-- R111: there is no MOV M,M. -/
theorem test_wf_no_mov_m_m : (Instr.mov .m .m).wf = false := by decide

/-- R112: a defined byte is no undefined byte. -/
theorem test_wf_undefined_defined_byte : (Instr.undefined 0x00#8).wf = false := by decide

/-- The slot of MOV M,M is HLT (R111). -/
theorem test_wf_hlt_slot : instrOf 0x76#8 0x00#8 0x00#8 = .hlt := by decide

/-- One of the ten undefined bytes is well formed (R112). -/
theorem test_wf_undefined_byte : (Instr.undefined 0xED#8).wf = true := by decide


/-! ### Decoding: the byte of each constructor in the map of R111, followed by the operand bytes 0x12 and 0x34 (R13, R109) -/

theorem test_decode_data_transfer :
    instrOf 0x56#8 0x12#8 0x34#8 = .mov .d .m
    ∧ instrOf 0x2E#8 0x12#8 0x34#8 = .mvi .l 0x12#8
    ∧ instrOf 0x21#8 0x12#8 0x34#8 = .lxi .h 0x1234#16
    ∧ instrOf 0x3A#8 0x12#8 0x34#8 = .lda 0x1234#16
    ∧ instrOf 0x32#8 0x12#8 0x34#8 = .sta 0x1234#16
    ∧ instrOf 0x2A#8 0x12#8 0x34#8 = .lhld 0x1234#16
    ∧ instrOf 0x22#8 0x12#8 0x34#8 = .shld 0x1234#16
    ∧ instrOf 0x1A#8 0x12#8 0x34#8 = .ldax .d
    ∧ instrOf 0x02#8 0x12#8 0x34#8 = .stax .b
    ∧ instrOf 0xEB#8 0x12#8 0x34#8 = .xchg
    ∧ instrOf 0xF9#8 0x12#8 0x34#8 = .sphl
    ∧ instrOf 0xE3#8 0x12#8 0x34#8 = .xthl
    ∧ instrOf 0xF5#8 0x12#8 0x34#8 = .push .psw
    ∧ instrOf 0xE1#8 0x12#8 0x34#8 = .pop .h := by decide

theorem test_decode_arithmetic :
    instrOf 0x84#8 0x12#8 0x34#8 = .add .h
    ∧ instrOf 0x8E#8 0x12#8 0x34#8 = .adc .m
    ∧ instrOf 0x93#8 0x12#8 0x34#8 = .sub .e
    ∧ instrOf 0x9F#8 0x12#8 0x34#8 = .sbb .a
    ∧ instrOf 0xC6#8 0x12#8 0x34#8 = .adi 0x12#8
    ∧ instrOf 0xCE#8 0x12#8 0x34#8 = .aci 0x12#8
    ∧ instrOf 0xD6#8 0x12#8 0x34#8 = .sui 0x12#8
    ∧ instrOf 0xDE#8 0x12#8 0x34#8 = .sbi 0x12#8
    ∧ instrOf 0x34#8 0x12#8 0x34#8 = .inr .m
    ∧ instrOf 0x0D#8 0x12#8 0x34#8 = .dcr .c
    ∧ instrOf 0x39#8 0x12#8 0x34#8 = .dad .sp
    ∧ instrOf 0x13#8 0x12#8 0x34#8 = .inx .d
    ∧ instrOf 0x3B#8 0x12#8 0x34#8 = .dcx .sp := by decide

theorem test_decode_logical :
    instrOf 0xA1#8 0x12#8 0x34#8 = .ana .c
    ∧ instrOf 0xAE#8 0x12#8 0x34#8 = .xra .m
    ∧ instrOf 0xB5#8 0x12#8 0x34#8 = .ora .l
    ∧ instrOf 0xBA#8 0x12#8 0x34#8 = .cmp .d
    ∧ instrOf 0xE6#8 0x12#8 0x34#8 = .ani 0x12#8
    ∧ instrOf 0xEE#8 0x12#8 0x34#8 = .xri 0x12#8
    ∧ instrOf 0xF6#8 0x12#8 0x34#8 = .ori 0x12#8
    ∧ instrOf 0xFE#8 0x12#8 0x34#8 = .cpi 0x12#8
    ∧ instrOf 0x07#8 0x12#8 0x34#8 = .rlc
    ∧ instrOf 0x0F#8 0x12#8 0x34#8 = .rrc
    ∧ instrOf 0x17#8 0x12#8 0x34#8 = .ral
    ∧ instrOf 0x1F#8 0x12#8 0x34#8 = .rar
    ∧ instrOf 0x2F#8 0x12#8 0x34#8 = .cma
    ∧ instrOf 0x3F#8 0x12#8 0x34#8 = .cmc
    ∧ instrOf 0x37#8 0x12#8 0x34#8 = .stc := by decide

theorem test_decode_jumps :
    instrOf 0xC3#8 0x12#8 0x34#8 = .jmp 0x1234#16
    ∧ instrOf 0xC2#8 0x12#8 0x34#8 = .jnz 0x1234#16
    ∧ instrOf 0xCA#8 0x12#8 0x34#8 = .jz 0x1234#16
    ∧ instrOf 0xD2#8 0x12#8 0x34#8 = .jnc 0x1234#16
    ∧ instrOf 0xDA#8 0x12#8 0x34#8 = .jc 0x1234#16
    ∧ instrOf 0xE2#8 0x12#8 0x34#8 = .jpo 0x1234#16
    ∧ instrOf 0xEA#8 0x12#8 0x34#8 = .jpe 0x1234#16
    ∧ instrOf 0xF2#8 0x12#8 0x34#8 = .jp 0x1234#16
    ∧ instrOf 0xFA#8 0x12#8 0x34#8 = .jm 0x1234#16
    ∧ instrOf 0xE9#8 0x12#8 0x34#8 = .pchl := by decide

theorem test_decode_calls :
    instrOf 0xCD#8 0x12#8 0x34#8 = .call 0x1234#16
    ∧ instrOf 0xC4#8 0x12#8 0x34#8 = .cnz 0x1234#16
    ∧ instrOf 0xCC#8 0x12#8 0x34#8 = .cz 0x1234#16
    ∧ instrOf 0xD4#8 0x12#8 0x34#8 = .cnc 0x1234#16
    ∧ instrOf 0xDC#8 0x12#8 0x34#8 = .cc 0x1234#16
    ∧ instrOf 0xE4#8 0x12#8 0x34#8 = .cpo 0x1234#16
    ∧ instrOf 0xEC#8 0x12#8 0x34#8 = .cpe 0x1234#16
    ∧ instrOf 0xF4#8 0x12#8 0x34#8 = .cp 0x1234#16
    ∧ instrOf 0xFC#8 0x12#8 0x34#8 = .cm 0x1234#16
    ∧ instrOf 0xEF#8 0x12#8 0x34#8 = .rst 5#3 := by decide

theorem test_decode_returns :
    instrOf 0xC9#8 0x12#8 0x34#8 = .ret
    ∧ instrOf 0xC0#8 0x12#8 0x34#8 = .rnz
    ∧ instrOf 0xC8#8 0x12#8 0x34#8 = .rz
    ∧ instrOf 0xD0#8 0x12#8 0x34#8 = .rnc
    ∧ instrOf 0xD8#8 0x12#8 0x34#8 = .rc
    ∧ instrOf 0xE0#8 0x12#8 0x34#8 = .rpo
    ∧ instrOf 0xE8#8 0x12#8 0x34#8 = .rpe
    ∧ instrOf 0xF0#8 0x12#8 0x34#8 = .rp
    ∧ instrOf 0xF8#8 0x12#8 0x34#8 = .rm
    ∧ instrOf 0x76#8 0x12#8 0x34#8 = .hlt := by decide

theorem test_decode_others :
    instrOf 0x27#8 0x12#8 0x34#8 = .daa
    ∧ instrOf 0xDB#8 0x12#8 0x34#8 = .inp 0x12#8
    ∧ instrOf 0xD3#8 0x12#8 0x34#8 = .out 0x12#8
    ∧ instrOf 0x00#8 0x12#8 0x34#8 = .nop
    ∧ instrOf 0xFB#8 0x12#8 0x34#8 = .ei
    ∧ instrOf 0xF3#8 0x12#8 0x34#8 = .di
    ∧ instrOf 0x20#8 0x12#8 0x34#8 = .rim
    ∧ instrOf 0x30#8 0x12#8 0x34#8 = .sim
    ∧ instrOf 0x08#8 0x12#8 0x34#8 = .undefined 0x08#8 := by decide

/-! ### One step of the vectors of 95_test_vectors.md -/

/-- One step from `s` with the bytes of an instruction at its PC answers `t` with the same bytes there. -/
def steps (s : State) (bytes : List Byte) (t : State) : Bool :=
  match step (storeBytes s s.pc bytes) with
  | .next u => u == storeBytes t s.pc bytes
  | .fault _ => false
  | .refused _ => false

theorem test_T4_mov : steps
    { State.reset with h := 0x20#8, pc := 0x0100#16, mem := [(0x2000, 0x55#8)] } [0x6E#8]
    { State.reset with h := 0x20#8, l := 0x55#8, pc := 0x0101#16, mem := [(0x2000, 0x55#8)] } = true := by decide

theorem test_T6_mov : steps
    { State.reset with h := 0x20#8, pc := 0x0100#16 } [0x74#8]
    { State.reset with h := 0x20#8, pc := 0x0101#16, mem := [(0x2000, 0x20#8)] } = true := by decide

theorem test_T8_mvi : steps
    { State.reset with h := 0x30#8, pc := 0x0100#16 } [0x36#8, 0xAA#8]
    { State.reset with h := 0x30#8, pc := 0x0102#16, mem := [(0x3000, 0xAA#8)] } = true := by decide

theorem test_T10_mvi : steps
    { State.reset with cfg := { defaultConfig with wrap16 := .wrap }, pc := 0xFFFF#16, mem := [(0x0000, 0x42#8)] } [0x06#8]
    { State.reset with cfg := { defaultConfig with wrap16 := .wrap }, b := 0x42#8, pc := 0x0001#16, mem := [(0x0000, 0x42#8)] } = true := by decide

theorem test_T11_lxi : steps
    { State.reset with pc := 0x0100#16 } [0x21#8, 0x20#8, 0x50#8]
    { State.reset with h := 0x20#8, l := 0x50#8, pc := 0x0103#16 } = true := by decide

theorem test_T17_lxi : steps
    { State.reset with pc := 0xFFFD#16 } [0x01#8, 0x12#8, 0x34#8]
    { State.reset with pc := 0xFFFD#16, fault := some ⟨.registerOutOfRange, 4, 0xFFFD#16, 0x01#8, .register .pc 0x10000⟩ } = true := by decide

theorem test_T18_lda : steps
    { State.reset with pc := 0x0100#16, mem := [(0x2000, 0x42#8)] } [0x3A#8, 0x20#8, 0x00#8]
    { State.reset with a := 0x42#8, pc := 0x0103#16, mem := [(0x2000, 0x42#8)] } = true := by decide

theorem test_T20_sta : steps
    { State.reset with a := 0x01#8, pc := 0x0100#16 } [0x32#8, 0xFF#8, 0xFF#8]
    { State.reset with a := 0x01#8, pc := 0x0103#16, mem := [(0xFFFF, 0x01#8)] } = true := by decide

theorem test_T22_lhld : steps
    { State.reset with cfg := { defaultConfig with dataWordOrder := .lowAtLower }, pc := 0x0100#16, mem := [(0x2000, 0x12#8), (0x2001, 0x34#8)] } [0x2A#8, 0x20#8, 0x00#8]
    { State.reset with cfg := { defaultConfig with dataWordOrder := .lowAtLower }, h := 0x34#8, l := 0x12#8, pc := 0x0103#16, mem := [(0x2000, 0x12#8), (0x2001, 0x34#8)] } = true := by decide

theorem test_T23_lhld : steps
    { State.reset with pc := 0x0100#16, mem := [(0xFFFF, 0x12#8)] } [0x2A#8, 0xFF#8, 0xFF#8]
    { State.reset with pc := 0x0100#16, fault := some ⟨.addressOutOfBounds, 3, 0x0100#16, 0x2A#8, .address 0x10000⟩, mem := [(0xFFFF, 0x12#8)] } = true := by decide

theorem test_T25_shld : steps
    { State.reset with h := 0xAB#8, l := 0xCD#8, pc := 0x0100#16 } [0x22#8, 0x21#8, 0x00#8]
    { State.reset with h := 0xAB#8, l := 0xCD#8, pc := 0x0103#16, mem := [(0x2100, 0xAB#8), (0x2101, 0xCD#8)] } = true := by decide

theorem test_T27_shld : steps
    { State.reset with h := 0xAB#8, l := 0xCD#8, pc := 0x0100#16 } [0x22#8, 0xFF#8, 0xFF#8]
    { State.reset with h := 0xAB#8, l := 0xCD#8, pc := 0x0100#16, fault := some ⟨.addressOutOfBounds, 3, 0x0100#16, 0x22#8, .address 0x10000⟩ } = true := by decide

theorem test_T29_ldax : steps
    { State.reset with d := 0x20#8, e := 0x11#8, pc := 0x0100#16, mem := [(0x2011, 0x08#8)] } [0x1A#8]
    { State.reset with a := 0x08#8, d := 0x20#8, e := 0x11#8, pc := 0x0101#16, mem := [(0x2011, 0x08#8)] } = true := by decide

theorem test_T31_stax : steps
    { State.reset with a := 0x3C#8, d := 0x20#8, e := 0x20#8, pc := 0x0100#16 } [0x12#8]
    { State.reset with a := 0x3C#8, d := 0x20#8, e := 0x20#8, pc := 0x0101#16, mem := [(0x2020, 0x3C#8)] } = true := by decide

theorem test_T32_xchg : steps
    { State.reset with d := 0x33#8, e := 0x44#8, h := 0x11#8, l := 0x22#8, pc := 0x0100#16 } [0xEB#8]
    { State.reset with d := 0x11#8, e := 0x22#8, h := 0x33#8, l := 0x44#8, pc := 0x0101#16 } = true := by decide

theorem test_T33_sphl : steps
    { State.reset with h := 0x40#8, pc := 0x0100#16 } [0xF9#8]
    { State.reset with h := 0x40#8, sp := 0x4000#16, pc := 0x0101#16 } = true := by decide

theorem test_T34_xthl : steps
    { State.reset with h := 0xAA#8, l := 0xBB#8, sp := 0x3000#16, pc := 0x0100#16, mem := [(0x3000, 0x12#8), (0x3001, 0x34#8)] } [0xE3#8]
    { State.reset with h := 0x12#8, l := 0x34#8, sp := 0x3000#16, pc := 0x0101#16, mem := [(0x3000, 0xAA#8), (0x3001, 0xBB#8)] } = true := by decide

theorem test_T35_xthl : steps
    { State.reset with h := 0xAA#8, l := 0xBB#8, sp := 0xFFFF#16, pc := 0x0100#16 } [0xE3#8]
    { State.reset with h := 0xAA#8, l := 0xBB#8, sp := 0xFFFF#16, pc := 0x0100#16, fault := some ⟨.addressOutOfBounds, 3, 0x0100#16, 0xE3#8, .address 0x10000⟩ } = true := by decide

theorem test_T41_push : steps
    { State.reset with a := 0xFF#8, flag := 0xFF#8, sp := 0x2000#16, pc := 0x0100#16 } [0xF5#8]
    { State.reset with a := 0xFF#8, flag := 0xFF#8, sp := 0x1FFE#16, pc := 0x0101#16, mem := [(0x1FFE, 0xFF#8), (0x1FFF, 0xFF#8)] } = true := by decide

theorem test_T42_push : steps
    { State.reset with b := 0x12#8, c := 0x34#8, sp := 0x0001#16, pc := 0x0100#16 } [0xC5#8]
    { State.reset with b := 0x12#8, c := 0x34#8, sp := 0x0001#16, pc := 0x0100#16, fault := some ⟨.addressOutOfBounds, 3, 0x0100#16, 0xC5#8, .address (-1)⟩ } = true := by decide

theorem test_T48_pop : steps
    { State.reset with sp := 0x1FFE#16, pc := 0x0100#16, mem := [(0x1FFE, 0x08#8), (0x1FFF, 0xFF#8)] } [0xF1#8]
    { State.reset with a := 0x08#8, flag := 0xFF#8, sp := 0x2000#16, pc := 0x0101#16, mem := [(0x1FFE, 0x08#8), (0x1FFF, 0xFF#8)] } = true := by decide

theorem test_T50_pop : steps
    { State.reset with sp := 0xFFFE#16, pc := 0x0100#16 } [0xD1#8]
    { State.reset with sp := 0xFFFE#16, pc := 0x0100#16, fault := some ⟨.registerOutOfRange, 4, 0x0100#16, 0xD1#8, .register .sp 0x10000⟩ } = true := by decide

theorem test_A3_add : steps
    { State.reset with a := 0xFF#8, b := 0x01#8, pc := 0x0100#16 } [0x80#8]
    { State.reset with b := 0x01#8, flag := 0x55#8, pc := 0x0101#16 } = true := by decide

theorem test_A6_add : steps
    { State.reset with a := 0x0F#8, h := 0x20#8, pc := 0x0100#16, mem := [(0x2000, 0x01#8)] } [0x86#8]
    { State.reset with a := 0x10#8, h := 0x20#8, flag := 0x10#8, pc := 0x0101#16, mem := [(0x2000, 0x01#8)] } = true := by decide

theorem test_A8_adi : steps
    { State.reset with a := 0x3E#8, flag := 0x01#8, pc := 0x0100#16 } [0xC6#8, 0x01#8]
    { State.reset with a := 0x3F#8, flag := 0x04#8, pc := 0x0102#16 } = true := by decide

theorem test_A9_adc : steps
    { State.reset with a := 0xFF#8, flag := 0x01#8, pc := 0x0100#16 } [0x88#8]
    { State.reset with flag := 0x55#8, pc := 0x0101#16 } = true := by decide

theorem test_A12_aci : steps
    { State.reset with a := 0x7F#8, flag := 0x01#8, pc := 0x0100#16 } [0xCE#8, 0x00#8]
    { State.reset with a := 0x80#8, flag := 0x90#8, pc := 0x0102#16 } = true := by decide

theorem test_A13_sub : steps
    { State.reset with a := 0x05#8, b := 0x07#8, pc := 0x0100#16 } [0x90#8]
    { State.reset with a := 0xFE#8, b := 0x07#8, flag := 0x91#8, pc := 0x0101#16 } = true := by decide

theorem test_A14_sub : steps
    { State.reset with cfg := { defaultConfig with acSubMode := .notHalfBorrow }, a := 0x05#8, b := 0x07#8, pc := 0x0100#16 } [0x90#8]
    { State.reset with cfg := { defaultConfig with acSubMode := .notHalfBorrow }, a := 0xFE#8, b := 0x07#8, flag := 0x81#8, pc := 0x0101#16 } = true := by decide

theorem test_A18_sui : steps
    { State.reset with pc := 0x0100#16 } [0xD6#8, 0x01#8]
    { State.reset with a := 0xFF#8, flag := 0x95#8, pc := 0x0102#16 } = true := by decide

theorem test_A21_sbb : steps
    { State.reset with h := 0x20#8, flag := 0x01#8, pc := 0x0100#16 } [0x9E#8]
    { State.reset with a := 0xFF#8, h := 0x20#8, flag := 0x95#8, pc := 0x0101#16 } = true := by decide

theorem test_A23_sbi : steps
    { State.reset with flag := 0x01#8, pc := 0x0100#16 } [0xDE#8, 0xFF#8]
    { State.reset with flag := 0x55#8, pc := 0x0102#16 } = true := by decide

theorem test_A25_inr : steps
    { State.reset with a := 0x7F#8, flag := 0x01#8, pc := 0x0100#16 } [0x3C#8]
    { State.reset with a := 0x80#8, flag := 0x91#8, pc := 0x0101#16 } = true := by decide

theorem test_A26_inr : steps
    { State.reset with h := 0x20#8, flag := 0x01#8, pc := 0x0100#16, mem := [(0x2000, 0x0F#8)] } [0x34#8]
    { State.reset with h := 0x20#8, flag := 0x11#8, pc := 0x0101#16, mem := [(0x2000, 0x10#8)] } = true := by decide

theorem test_A28_dcr : steps
    { State.reset with cfg := { defaultConfig with acSubMode := .notHalfBorrow }, c := 0x01#8, flag := 0x01#8, pc := 0x0100#16 } [0x0D#8]
    { State.reset with cfg := { defaultConfig with acSubMode := .notHalfBorrow }, flag := 0x55#8, pc := 0x0101#16 } = true := by decide

theorem test_A30_dcr : steps
    { State.reset with h := 0x20#8, pc := 0x0100#16 } [0x35#8]
    { State.reset with h := 0x20#8, flag := 0x94#8, pc := 0x0101#16, mem := [(0x2000, 0xFF#8)] } = true := by decide

theorem test_A31_dad : steps
    { State.reset with c := 0x01#8, h := 0xFF#8, l := 0xFF#8, pc := 0x0100#16 } [0x09#8]
    { State.reset with c := 0x01#8, flag := 0x01#8, pc := 0x0101#16 } = true := by decide

theorem test_A32_dad : steps
    { State.reset with d := 0x10#8, h := 0x10#8, flag := 0x41#8, pc := 0x0100#16 } [0x19#8]
    { State.reset with d := 0x10#8, h := 0x20#8, flag := 0x40#8, pc := 0x0101#16 } = true := by decide

theorem test_A36_inx : steps
    { State.reset with h := 0xFF#8, l := 0xFF#8, pc := 0x0100#16 } [0x23#8]
    { State.reset with pc := 0x0101#16 } = true := by decide

theorem test_A39_inx : steps
    { State.reset with sp := 0xFFFF#16, pc := 0x0100#16 } [0x33#8]
    { State.reset with sp := 0xFFFF#16, pc := 0x0100#16, fault := some ⟨.registerOutOfRange, 4, 0x0100#16, 0x33#8, .register .sp 0x10000⟩ } = true := by decide

theorem test_A42_dcx : steps
    { State.reset with pc := 0x0100#16 } [0x1B#8]
    { State.reset with d := 0xFF#8, e := 0xFF#8, pc := 0x0101#16 } = true := by decide

theorem test_A45_dcx : steps
    { State.reset with pc := 0x0100#16 } [0x3B#8]
    { State.reset with pc := 0x0100#16, fault := some ⟨.registerOutOfRange, 4, 0x0100#16, 0x3B#8, .register .sp (-1)⟩ } = true := by decide

theorem test_G1_ana : steps
    { State.reset with a := 0xF0#8, b := 0x3C#8, flag := 0x01#8, pc := 0x0100#16 } [0xA0#8]
    { State.reset with a := 0x30#8, b := 0x3C#8, flag := 0x14#8, pc := 0x0101#16 } = true := by decide

theorem test_G3_ani : steps
    { State.reset with a := 0xA5#8, pc := 0x0100#16 } [0xE6#8, 0x0F#8]
    { State.reset with a := 0x05#8, flag := 0x14#8, pc := 0x0102#16 } = true := by decide

theorem test_G4_xra : steps
    { State.reset with a := 0x5A#8, flag := 0x11#8, pc := 0x0100#16 } [0xAF#8]
    { State.reset with flag := 0x44#8, pc := 0x0101#16 } = true := by decide

theorem test_G7_xri : steps
    { State.reset with a := 0x0F#8, pc := 0x0100#16 } [0xEE#8, 0xFF#8]
    { State.reset with a := 0xF0#8, flag := 0x84#8, pc := 0x0102#16 } = true := by decide

theorem test_G8_ora : steps
    { State.reset with flag := 0x11#8, pc := 0x0100#16 } [0xB0#8]
    { State.reset with flag := 0x44#8, pc := 0x0101#16 } = true := by decide

theorem test_G10_ori : steps
    { State.reset with a := 0x01#8, pc := 0x0100#16 } [0xF6#8, 0x80#8]
    { State.reset with a := 0x81#8, flag := 0x84#8, pc := 0x0102#16 } = true := by decide

theorem test_G11_rlc : steps
    { State.reset with a := 0x85#8, pc := 0x0100#16 } [0x07#8]
    { State.reset with a := 0x0B#8, flag := 0x01#8, pc := 0x0101#16 } = true := by decide

theorem test_G13_rrc : steps
    { State.reset with a := 0x01#8, pc := 0x0100#16 } [0x0F#8]
    { State.reset with a := 0x80#8, flag := 0x01#8, pc := 0x0101#16 } = true := by decide

theorem test_G16_ral : steps
    { State.reset with a := 0x55#8, flag := 0x01#8, pc := 0x0100#16 } [0x17#8]
    { State.reset with a := 0xAB#8, pc := 0x0101#16 } = true := by decide

theorem test_G17_rar : steps
    { State.reset with a := 0x01#8, flag := 0x01#8, pc := 0x0100#16 } [0x1F#8]
    { State.reset with a := 0x80#8, flag := 0x01#8, pc := 0x0101#16 } = true := by decide

theorem test_G22_cmp : steps
    { State.reset with cfg := { defaultConfig with acSubMode := .notHalfBorrow }, a := 0x05#8, b := 0x07#8, pc := 0x0100#16 } [0xB8#8]
    { State.reset with cfg := { defaultConfig with acSubMode := .notHalfBorrow }, a := 0x05#8, b := 0x07#8, flag := 0x81#8, pc := 0x0101#16 } = true := by decide

theorem test_G26_cpi : steps
    { State.reset with a := 0x50#8, pc := 0x0100#16 } [0xFE#8, 0x51#8]
    { State.reset with a := 0x50#8, flag := 0x95#8, pc := 0x0102#16 } = true := by decide

theorem test_G27_cma : steps
    { State.reset with a := 0x51#8, flag := 0x01#8, pc := 0x0100#16 } [0x2F#8]
    { State.reset with a := 0xAE#8, flag := 0x01#8, pc := 0x0101#16 } = true := by decide

theorem test_G28_cmc : steps
    { State.reset with flag := 0x01#8, pc := 0x0100#16 } [0x3F#8]
    { State.reset with pc := 0x0101#16 } = true := by decide

theorem test_G30_stc : steps
    { State.reset with pc := 0x0100#16 } [0x37#8]
    { State.reset with flag := 0x01#8, pc := 0x0101#16 } = true := by decide

theorem test_K1_jmp : steps
    State.reset [0xC3#8, 0x00#8, 0x03#8]
    { State.reset with pc := 0x0003#16 } = true := by decide

theorem test_K4_jnz : steps
    { State.reset with pc := 0x0010#16 } [0xC2#8, 0x12#8, 0x34#8]
    { State.reset with pc := 0x1234#16 } = true := by decide

theorem test_K5_jnz : steps
    { State.reset with flag := 0x40#8, pc := 0x0010#16 } [0xC2#8, 0x12#8, 0x34#8]
    { State.reset with flag := 0x40#8, pc := 0x0013#16 } = true := by decide

theorem test_K20_jz : steps
    { State.reset with pc := 0xFFFD#16 } [0xCA#8, 0x12#8, 0x34#8]
    { State.reset with pc := 0xFFFD#16, fault := some ⟨.registerOutOfRange, 4, 0xFFFD#16, 0xCA#8, .register .pc 0x10000⟩ } = true := by decide

theorem test_K21_jz : steps
    { State.reset with flag := 0x40#8, pc := 0xFFFD#16 } [0xCA#8, 0x12#8, 0x34#8]
    { State.reset with flag := 0x40#8, pc := 0x1234#16 } = true := by decide

theorem test_K9_jnc : steps
    { State.reset with flag := 0x01#8, pc := 0x0010#16 } [0xD2#8, 0x12#8, 0x34#8]
    { State.reset with flag := 0x01#8, pc := 0x0013#16 } = true := by decide

theorem test_K10_jc : steps
    { State.reset with flag := 0x01#8, pc := 0x0010#16 } [0xDA#8, 0x12#8, 0x34#8]
    { State.reset with flag := 0x01#8, pc := 0x1234#16 } = true := by decide

theorem test_K13_jpo : steps
    { State.reset with flag := 0x04#8, pc := 0x0010#16 } [0xE2#8, 0x12#8, 0x34#8]
    { State.reset with flag := 0x04#8, pc := 0x0013#16 } = true := by decide

theorem test_K14_jpe : steps
    { State.reset with flag := 0x04#8, pc := 0x0010#16 } [0xEA#8, 0x12#8, 0x34#8]
    { State.reset with flag := 0x04#8, pc := 0x1234#16 } = true := by decide

theorem test_K17_jp : steps
    { State.reset with flag := 0x80#8, pc := 0x0010#16 } [0xF2#8, 0x12#8, 0x34#8]
    { State.reset with flag := 0x80#8, pc := 0x0013#16 } = true := by decide

theorem test_K18_jm : steps
    { State.reset with flag := 0x80#8, pc := 0x0010#16 } [0xFA#8, 0x12#8, 0x34#8]
    { State.reset with flag := 0x80#8, pc := 0x1234#16 } = true := by decide

theorem test_K23_pchl : steps
    { State.reset with h := 0x12#8, l := 0x34#8, pc := 0x0100#16 } [0xE9#8]
    { State.reset with h := 0x12#8, l := 0x34#8, pc := 0x1234#16 } = true := by decide

theorem test_K25_call : steps
    { State.reset with cfg := { defaultConfig with dataWordOrder := .lowAtLower }, sp := 0x2000#16, pc := 0x0010#16, mem := [(0x1FFE, 0xEE#8), (0x1FFF, 0xEE#8)] } [0xCD#8, 0x01#8, 0x00#8]
    { State.reset with cfg := { defaultConfig with dataWordOrder := .lowAtLower }, sp := 0x1FFE#16, pc := 0x0100#16, mem := [(0x1FFE, 0x13#8)] } = true := by decide

theorem test_X12_call : steps
    { State.reset with sp := 0x0001#16, pc := 0xFFFD#16 } [0xCD#8, 0x00#8, 0x00#8]
    { State.reset with sp := 0x0001#16, pc := 0xFFFD#16, fault := some ⟨.registerOutOfRange, 4, 0xFFFD#16, 0xCD#8, .register .pc 0x10000⟩ } = true := by decide

theorem test_K27_call : steps
    { State.reset with sp := 0x2000#16, pc := 0xFFFD#16, mem := [(0x1FFE, 0xEE#8), (0x1FFF, 0xEE#8)] } [0xCD#8, 0x01#8, 0x00#8]
    { State.reset with sp := 0x2000#16, pc := 0xFFFD#16, fault := some ⟨.registerOutOfRange, 4, 0xFFFD#16, 0xCD#8, .register .pc 0x10000⟩, mem := [(0x1FFE, 0xEE#8), (0x1FFF, 0xEE#8)] } = true := by decide

theorem test_K32_cz : steps
    { State.reset with sp := 0x2000#16, pc := 0x0020#16, mem := [(0x1FFE, 0xEE#8), (0x1FFF, 0xEE#8)] } [0xCC#8, 0x02#8, 0x00#8]
    { State.reset with sp := 0x2000#16, pc := 0x0023#16, mem := [(0x1FFE, 0xEE#8), (0x1FFF, 0xEE#8)] } = true := by decide

theorem test_K33_cnc : steps
    { State.reset with sp := 0x2000#16, pc := 0x0020#16, mem := [(0x1FFE, 0xEE#8), (0x1FFF, 0xEE#8)] } [0xD4#8, 0x02#8, 0x00#8]
    { State.reset with sp := 0x1FFE#16, pc := 0x0200#16, mem := [(0x1FFF, 0x23#8)] } = true := by decide

theorem test_K45_cc : steps
    { State.reset with pc := 0x0020#16 } [0xDC#8, 0x02#8, 0x00#8]
    { State.reset with pc := 0x0023#16 } = true := by decide

theorem test_K38_cpo : steps
    { State.reset with flag := 0x04#8, sp := 0x2000#16, pc := 0x0020#16, mem := [(0x1FFE, 0xEE#8), (0x1FFF, 0xEE#8)] } [0xE4#8, 0x02#8, 0x00#8]
    { State.reset with flag := 0x04#8, sp := 0x2000#16, pc := 0x0023#16, mem := [(0x1FFE, 0xEE#8), (0x1FFF, 0xEE#8)] } = true := by decide

theorem test_K39_cpe : steps
    { State.reset with flag := 0x04#8, sp := 0x2000#16, pc := 0x0020#16, mem := [(0x1FFE, 0xEE#8), (0x1FFF, 0xEE#8)] } [0xEC#8, 0x02#8, 0x00#8]
    { State.reset with flag := 0x04#8, sp := 0x1FFE#16, pc := 0x0200#16, mem := [(0x1FFF, 0x23#8)] } = true := by decide

theorem test_K42_cp : steps
    { State.reset with flag := 0x80#8, sp := 0x2000#16, pc := 0x0020#16, mem := [(0x1FFE, 0xEE#8), (0x1FFF, 0xEE#8)] } [0xF4#8, 0x02#8, 0x00#8]
    { State.reset with flag := 0x80#8, sp := 0x2000#16, pc := 0x0023#16, mem := [(0x1FFE, 0xEE#8), (0x1FFF, 0xEE#8)] } = true := by decide

theorem test_K43_cm : steps
    { State.reset with flag := 0x80#8, sp := 0x2000#16, pc := 0x0020#16, mem := [(0x1FFE, 0xEE#8), (0x1FFF, 0xEE#8)] } [0xFC#8, 0x02#8, 0x00#8]
    { State.reset with flag := 0x80#8, sp := 0x1FFE#16, pc := 0x0200#16, mem := [(0x1FFF, 0x23#8)] } = true := by decide

theorem test_K46_ret : steps
    { State.reset with sp := 0x1FFE#16, pc := 0x0100#16, mem := [(0x1FFF, 0x13#8)] } [0xC9#8]
    { State.reset with sp := 0x2000#16, pc := 0x0013#16, mem := [(0x1FFF, 0x13#8)] } = true := by decide

theorem test_K47_ret : steps
    { State.reset with sp := 0xFFFE#16, pc := 0x0100#16 } [0xC9#8]
    { State.reset with sp := 0xFFFE#16, pc := 0x0100#16, fault := some ⟨.registerOutOfRange, 4, 0x0100#16, 0xC9#8, .register .sp 0x10000⟩ } = true := by decide

theorem test_K49_rnz : steps
    { State.reset with sp := 0x1FFE#16, pc := 0x0100#16, mem := [(0x1FFF, 0x13#8)] } [0xC0#8]
    { State.reset with sp := 0x2000#16, pc := 0x0013#16, mem := [(0x1FFF, 0x13#8)] } = true := by decide

theorem test_K52_rz : steps
    { State.reset with sp := 0x1FFE#16, pc := 0x0100#16, mem := [(0x1FFF, 0x13#8)] } [0xC8#8]
    { State.reset with sp := 0x1FFE#16, pc := 0x0101#16, mem := [(0x1FFF, 0x13#8)] } = true := by decide

theorem test_K54_rnc : steps
    { State.reset with flag := 0x01#8, sp := 0x1FFE#16, pc := 0x0100#16, mem := [(0x1FFF, 0x13#8)] } [0xD0#8]
    { State.reset with flag := 0x01#8, sp := 0x1FFE#16, pc := 0x0101#16, mem := [(0x1FFF, 0x13#8)] } = true := by decide

theorem test_K65_rc : steps
    { State.reset with sp := 0xFFFF#16, pc := 0x0100#16 } [0xD8#8]
    { State.reset with sp := 0xFFFF#16, pc := 0x0101#16 } = true := by decide

theorem test_K58_rpo : steps
    { State.reset with flag := 0x04#8, sp := 0x1FFE#16, pc := 0x0100#16, mem := [(0x1FFF, 0x13#8)] } [0xE0#8]
    { State.reset with flag := 0x04#8, sp := 0x1FFE#16, pc := 0x0101#16, mem := [(0x1FFF, 0x13#8)] } = true := by decide

theorem test_K59_rpe : steps
    { State.reset with flag := 0x04#8, sp := 0x1FFE#16, pc := 0x0100#16, mem := [(0x1FFF, 0x13#8)] } [0xE8#8]
    { State.reset with flag := 0x04#8, sp := 0x2000#16, pc := 0x0013#16, mem := [(0x1FFF, 0x13#8)] } = true := by decide

theorem test_K62_rp : steps
    { State.reset with flag := 0x80#8, sp := 0x1FFE#16, pc := 0x0100#16, mem := [(0x1FFF, 0x13#8)] } [0xF0#8]
    { State.reset with flag := 0x80#8, sp := 0x1FFE#16, pc := 0x0101#16, mem := [(0x1FFF, 0x13#8)] } = true := by decide

theorem test_K63_rm : steps
    { State.reset with flag := 0x80#8, sp := 0x1FFE#16, pc := 0x0100#16, mem := [(0x1FFF, 0x13#8)] } [0xF8#8]
    { State.reset with flag := 0x80#8, sp := 0x2000#16, pc := 0x0013#16, mem := [(0x1FFF, 0x13#8)] } = true := by decide

theorem test_K73_rst : steps
    { State.reset with sp := 0x2000#16, pc := 0x0040#16, mem := [(0x1FFE, 0xEE#8), (0x1FFF, 0xEE#8)] } [0xFF#8]
    { State.reset with sp := 0x1FFE#16, pc := 0x0038#16, mem := [(0x1FFF, 0x41#8)] } = true := by decide

theorem test_K74_rst : steps
    { State.reset with cfg := { defaultConfig with rstPushes := false }, sp := 0x2000#16, pc := 0x0040#16, mem := [(0x1FFE, 0xEE#8), (0x1FFF, 0xEE#8)] } [0xCF#8]
    { State.reset with cfg := { defaultConfig with rstPushes := false }, sp := 0x2000#16, pc := 0x0008#16, mem := [(0x1FFE, 0xEE#8), (0x1FFF, 0xEE#8)] } = true := by decide

theorem test_K77_hlt : steps
    { State.reset with pc := 0x0005#16 } [0x76#8]
    { State.reset with pc := 0x0006#16 } = true := by decide

theorem test_K78_hlt : steps
    { State.reset with pc := 0xFFFF#16 } [0x76#8]
    { State.reset with pc := 0xFFFF#16, fault := some ⟨.registerOutOfRange, 4, 0xFFFF#16, 0x76#8, .register .pc 0x10000⟩ } = true := by decide

theorem test_U3_daa : steps
    { State.reset with cfg := { defaultConfig with daaMode := .datasheet }, a := 0x9B#8, pc := 0x0100#16 } [0x27#8]
    { State.reset with cfg := { defaultConfig with daaMode := .datasheet }, a := 0x01#8, flag := 0x11#8, pc := 0x0101#16 } = true := by decide

theorem test_U1_daa : steps
    { State.reset with a := 0x0F#8, pc := 0x0010#16 } [0x27#8]
    { State.reset with a := 0x0F#8, pc := 0x0010#16, fault := some ⟨.notImplemented, 2, 0x0010#16, 0x27#8, .none⟩ } = true := by decide

theorem test_U8_in : steps
    { State.reset with cfg := { defaultConfig with ioMode := .datasheet }, pc := 0x0100#16, port := [(0x05, 0x3C#8)] } [0xDB#8, 0x05#8]
    { State.reset with cfg := { defaultConfig with ioMode := .datasheet }, a := 0x3C#8, pc := 0x0102#16, port := [(0x05, 0x3C#8)] } = true := by decide

theorem test_U9_in : steps
    { State.reset with pc := 0xFFFF#16 } [0xDB#8]
    { State.reset with pc := 0xFFFF#16, fault := some ⟨.addressOutOfBounds, 3, 0xFFFF#16, 0xDB#8, .address 0x10000⟩ } = true := by decide

theorem test_U11_out : steps
    { State.reset with cfg := { defaultConfig with ioMode := .datasheet }, a := 0x99#8, pc := 0x0100#16 } [0xD3#8, 0x07#8]
    { State.reset with cfg := { defaultConfig with ioMode := .datasheet }, a := 0x99#8, pc := 0x0102#16, port := [(0x07, 0x99#8)] } = true := by decide

theorem test_U10_out : steps
    { State.reset with a := 0x99#8, pc := 0x0100#16 } [0xD3#8, 0x07#8]
    { State.reset with a := 0x99#8, pc := 0x0100#16, fault := some ⟨.notImplemented, 2, 0x0100#16, 0xD3#8, .none⟩ } = true := by decide

theorem test_U13_nop : steps
    { State.reset with pc := 0x0100#16 } [0x00#8]
    { State.reset with pc := 0x0101#16 } = true := by decide

theorem test_U15_nop : steps
    { State.reset with cfg := { defaultConfig with wrap16 := .wrap }, pc := 0xFFFF#16 } [0x00#8]
    { State.reset with cfg := { defaultConfig with wrap16 := .wrap } } = true := by decide

theorem test_U16_ei : steps
    State.reset [0xFB#8]
    { State.reset with fault := some ⟨.notImplemented, 2, 0x0000#16, 0xFB#8, .none⟩ } = true := by decide

theorem test_U17_di : steps
    { State.reset with pc := 0x0100#16 } [0xF3#8]
    { State.reset with pc := 0x0100#16, fault := some ⟨.notImplemented, 2, 0x0100#16, 0xF3#8, .none⟩ } = true := by decide

theorem test_U18_rim : steps
    { State.reset with pc := 0x0100#16 } [0x20#8]
    { State.reset with pc := 0x0100#16, fault := some ⟨.notImplemented, 2, 0x0100#16, 0x20#8, .none⟩ } = true := by decide

theorem test_U19_sim : steps
    { State.reset with pc := 0x0100#16 } [0x30#8]
    { State.reset with pc := 0x0100#16, fault := some ⟨.notImplemented, 2, 0x0100#16, 0x30#8, .none⟩ } = true := by decide

theorem test_X6_undefined : steps
    { State.reset with a := 0x11#8, pc := 0x0100#16 } [0xCB#8]
    { State.reset with a := 0x11#8, pc := 0x0100#16, fault := some ⟨.unknownOpcode, 1, 0x0100#16, 0xCB#8, .none⟩ } = true := by decide

/-! ### States that meet the hypotheses of the obligations, each clause at a boundary of its range -/

/-- The reset state with another PC and SP. -/
def stateAt (pc sp : Word) : State := { State.reset with pc := pc, sp := sp }

/-- The same with `WRAP16 = Wrap`. -/
def wrapAt (pc sp : Word) : State :=
  { State.reset with cfg := { defaultConfig with wrap16 := .wrap }, pc := pc, sp := sp }

/-- A state with a fault latched. -/
def latchedState : State :=
  { State.reset with fault := some ⟨.unknownOpcode, 1, 0x0000#16, 0x08#8, .none⟩ }

/-- The state after a step, where there is one. -/
def after (s : State) : Option State :=
  match step s with
  | .next t => some t
  | .fault _ => none
  | .refused _ => none

/-- A state at PC with the bytes of an instruction there. -/
def holding (s : State) (bytes : List Byte) : State := storeBytes s s.pc bytes

theorem witness_DecodeAndEncodeAgree :
    (Instr.mov .d .m).wf = true ∧ (Instr.undefined 0xFD#8).wf = true
    ∧ decode [0x01#8, 0x12#8, 0x34#8, 0x76#8] = .ok (.lxi .b 0x1234#16, [0x76#8])
    ∧ instrOf 0xFF#8 0x00#8 0x00#8 = instrOf 0xFF#8 0x00#8 0x00#8 := ⟨rfl, rfl, rfl, rfl⟩

theorem witness_UndefinedBytesTakeUnknownOpcode :
    0x08#8 ∈ undefinedBytes ∧ 0xFD#8 ∈ undefinedBytes ∧ 0x09#8 ∉ undefinedBytes
    ∧ (holding (stateAt 0xFFFF#16 0x0000#16) [0xFD#8]).fault = none
    ∧ memRead (holding (stateAt 0xFFFF#16 0x0000#16) [0xFD#8]) 0xFFFF#16 ∈ undefinedBytes := by decide

/-- A step that takes `UnknownOpcode`: what the last clause asks for (R311). -/
theorem witness_UndefinedBytesTakeUnknownOpcode_taken :
    step (holding State.reset [0x08#8])
      = .next { latchedState with mem := [(0x0000, 0x08#8)] }
    ∧ latchedState.fault = some ⟨.unknownOpcode, 1, 0x0000#16, 0x08#8, .none⟩ := ⟨rfl, rfl⟩

theorem witness_LengthFollowsFromTheOpcode : 0x07#8 ∉ undefinedBytes ∧ Instr.hlt.wf = true := by decide

theorem witness_StepRunsTheDecodedInstruction :
    let s := holding (stateAt 0xFFFD#16 0x0000#16) [0xC3#8, 0x12#8, 0x34#8]
    s.fault = none
    ∧ decode [memRead s s.pc, memRead s (s.pc + 1), memRead s (s.pc + 2)]
      = .ok (.jmp 0x1234#16, [])
    ∧ CanFetch s (instrLength (.jmp 0x1234#16)) := ⟨rfl, rfl, by decide⟩

theorem witness_OperandFetchPastTheTopFaults :
    let s := holding (stateAt 0xFFFE#16 0x0000#16) [0xC3#8]
    s.fault = none ∧ s.cfg.wrap16 = .fault ∧ memRead s s.pc = 0xC3#8
    ∧ 0x10000 < s.pc.toNat + lengthOf 0xC3#8 := by decide

theorem witness_LatchedFaultIsReturnedAgain :
    latchedState.fault = some ⟨.unknownOpcode, 1, 0x0000#16, 0x08#8, .none⟩
    ∧ (0 ≤ (0xFFFF : Int)) ∧ (0xFF : Int) ≤ 0xFF ∧ (7 : Int) ≤ 7
    ∧ ([0x76] : List Nat).length ≤ 65536 := by decide

theorem witness_FaultsArePrecise :
    (after (holding (stateAt 0x0100#16 0x0001#16) [0xC5#8])).isSome = true
    ∧ (after (stateAt 0x0100#16 0x0000#16)).isSome = true := by decide

theorem witness_EveryInstructionAnswersANextState : State.reset.fault = none := rfl

theorem witness_InvariantIsKeptByEveryStep :
    StateInv (holding (stateAt 0x0100#16 0x2000#16) [0xC5#8])
    ∧ (after (holding (stateAt 0x0100#16 0x2000#16) [0xC5#8])).isSome = true
    ∧ StateInv (holding (stateAt 0xFFFF#16 0x0000#16) [0x76#8])
    ∧ (after (holding (stateAt 0xFFFF#16 0x0000#16) [0x76#8])).isSome = true := by decide

theorem witness_InvariantIsKeptByTheHost :
    StateInv latchedState
    ∧ hostLoadProgram latchedState [0x76]
      = .ok { latchedState with mem := [(0x0000, 0x76#8)] }
    ∧ hostSetMem latchedState 0xFFFF (-1)
      = .ok { latchedState with mem := [(0xFFFF, 0xFF#8)] }
    ∧ hostSetPort latchedState 0xFF 0xFF
      = .ok { latchedState with port := [(0xFF, 0xFF#8)] }
    ∧ hostSetReg latchedState "SP" 0xFFFF = .ok { latchedState with sp := 0xFFFF#16 }
    ∧ hostSetFlag latchedState 7 1 = .ok { latchedState with flag := 0x80#8 }
    ∧ RunEnds latchedState (.fault ⟨.unknownOpcode, 1, 0x0000#16, 0x08#8, .none⟩) latchedState :=
  ⟨by decide, rfl, rfl, rfl, rfl, rfl, rfl, rfl⟩

/-- A run that executes, from a state with the invariant (R355). -/
theorem witness_InvariantIsKeptByTheHost_run :
    StateInv (holding State.reset [0x76#8])
    ∧ RunEnds (holding State.reset [0x76#8]) .halted
        { holding State.reset [0x76#8] with pc := 0x0001#16, isHalted := true } :=
  ⟨by decide, .halted rfl rfl⟩

theorem witness_ConfigurationNeverChanges :
    exec .nop State.reset = .next { State.reset with pc := 0x0001#16 }
    ∧ step State.reset = .next { State.reset with pc := 0x0001#16 }
    ∧ hostSetReg State.reset "PC" 0 = .ok State.reset
    ∧ hostSetMem State.reset 0 0 = .ok State.reset
    ∧ hostSetPort State.reset 0 0 = .ok State.reset
    ∧ hostSetFlag State.reset 0 0 = .ok State.reset
    ∧ hostLoadProgram State.reset [] = .ok State.reset
    ∧ RunEnds (holding State.reset [0x76#8]) .halted
        { holding State.reset [0x76#8] with pc := 0x0001#16, isHalted := true } :=
  ⟨rfl, rfl, rfl, rfl, rfl, rfl, rfl, .halted rfl rfl⟩

theorem witness_InstructionsWriteOnlyTheirParts :
    exec .stc (stateAt 0x0100#16 0x0000#16)
      = .next { stateAt 0x0101#16 0x0000#16 with flag := 0x01#8 }
    ∧ Part.a ∉ mayWrite .stc ∧ 0x0100#16 ∉ storeAddresses (stateAt 0x0100#16 0x0000#16) .stc
    ∧ Part.port ∉ mayWrite (.call 0x1234#16)
    ∧ 0x2000#16 ∉ storeAddresses (stateAt 0x0100#16 0x2000#16) (.call 0x1234#16) :=
  ⟨rfl, by decide, by decide, by decide, by decide⟩

theorem witness_StepIgnoresTheHaltLatch :
    (after (stateAt 0xFFFE#16 0x0000#16)).isSome = true
    ∧ memRead (stateAt 0xFFFE#16 0x0000#16) 0xFFFE#16 ≠ 0x76#8
    ∧ (after (holding (stateAt 0xFFFE#16 0x0000#16) [0x76#8])).map State.fault = some none := by decide

theorem witness_PortsAreOutOfReachInFaultMode :
    (stateAt 0x0100#16 0x0000#16).cfg.ioMode = .fault
    ∧ (after (holding (stateAt 0x0100#16 0x0000#16) [0xD3#8, 0x07#8])).isSome = true := by decide

theorem witness_WrapModeHasNoBoundsFault :
    let s := holding (wrapAt 0xFFFF#16 0x0000#16) [0x08#8]
    s.cfg.wrap16 = .wrap
    ∧ (after s).map State.fault = some (some ⟨.unknownOpcode, 1, 0xFFFF#16, 0x08#8, .none⟩) := by decide

theorem witness_PcAdvancePastTheTopFaults :
    let s := stateAt 0xFFFF#16 0xFFFD#16
    let u := stateAt 0xFFFD#16 0x0002#16
    s.cfg.wrap16 = .fault
    ∧ reachesPcAdvance s .nop = true ∧ 0xFFFF < s.pc.toNat + (encode .nop).length
    ∧ reachesPcAdvance s (.pop .b) = true ∧ reachesPcAdvance u (.push .psw) = true
    ∧ reachesPcAdvance u (.jz 0x1234#16) = true
    ∧ 0xFFFF < u.pc.toNat + (encode (.jz 0x1234#16)).length
    ∧ reachesPcAdvance u (.lhld 0xFFFE#16) = true := by decide

theorem witness_CanonicalMemoriesAreEqualWhenTheyReadAlike :
    Memory.wf 4 [(3, 0xFF#8)] = true
    ∧ (∀ x, x < 4 → Memory.read [(3, 0xFF#8)] x = Memory.read [(3, 0xFF#8)] x) := by decide

theorem witness_ResetGivesTheResetValues : latchedState.cfg = State.reset.cfg := rfl

theorem witness_LoadProgramStoresFromZero :
    65536 < (List.replicate 65537 0x76).length ∧ (List.replicate 65536 0x76).length ≤ 65536 := by
  rw [List.length_replicate, List.length_replicate]
  decide

theorem witness_MemoryCellGetAndSet :
    (-1 : Int) < 0 ∧ (0xFFFF : Int) < 0x10000 ∧ (0xFFFF : Int) = (0xFFFF#16).toNat := by decide

theorem witness_RegisterGetAndSet :
    "HL" ∉ ["A", "B", "C", "D", "E", "H", "L", "SP", "PC", "FLAG"]
    ∧ (0 : Int) ≤ 0xFFFF ∧ (0xFFFF : Int) ≤ 0xFFFF ∧ (0xFFFF : Int) < 0x10000 ∧ (-1 : Int) < 0 := by decide

/-- Each clause at a boundary; in the last conjunct the number and the value are both bad (log entry 10). -/
theorem witness_PortGetAndSet :
    ((-1 : Int) < 0 ∧ (0xFF : Int) < 0x100 ∧ (0xFF : Int) = (0xFF#8).toNat ∧ (0 : Int) ≤ 0xFF
      ∧ (0xFF : Int) ≤ 0xFF)
    ∧ hostSetPort State.reset 0x100 0x100 = .error .hostAddressOutOfBounds :=
  ⟨by decide, rfl⟩

/-- Each clause at a boundary; in the last conjunct the index and the value are both bad (log entry 10). -/
theorem witness_FlagBitGetAndSet :
    ((-1 : Int) < 0 ∧ (7 : Int) < 8 ∧ (7 : Int) = (7 : Nat) ∧ 7 ≤ 7 ∧ (2 : Int) ≠ 0 ∧ (2 : Int) ≠ 1)
    ∧ hostSetFlag State.reset 8 2 = .error .hostFlagIndexOutOfRange :=
  ⟨by decide, rfl⟩

theorem witness_StepReportsItsFault :
    (holding (stateAt 0x0100#16 0x0000#16) [0x08#8]).fault = none := rfl

/-- A run that halts within two steps, and a budget of one that is used up (R355, R367). -/
theorem witness_RunForAgreesWithRun :
    let s := holding State.reset [0x00#8, 0x76#8]
    let t := { s with pc := 0x0002#16, isHalted := true }
    runFor 2 s = (.halted, t) ∧ RunEnds s .halted t ∧ RunReport.halted ≠ .outOfSteps
    ∧ runFor 1 s = (.outOfSteps, { s with pc := 0x0001#16, isHalted := false }) :=
  ⟨rfl, .again rfl rfl (.halted rfl rfl), by decide, rfl⟩

theorem witness_EmptyMachineRunsOffTheTop :
    State.reset.cfg.wrap16 = .fault ∧ (wrapAt 0x0000#16 0x0000#16).cfg.wrap16 = .wrap := by decide

theorem witness_MovCopiesOneByte :
    ¬((Operand8.m) = .m ∧ (Operand8.a) = .m) ∧ ¬((Operand8.l) = .m ∧ (Operand8.m) = .m)
    ∧ CanAdvance (stateAt 0xFFFE#16 0x0000#16) 1 ∧ CanAdvance (wrapAt 0xFFFF#16 0x0000#16) 1 := by decide

theorem witness_MviPutsItsImmediate :
    CanAdvance (stateAt 0xFFFD#16 0x0000#16) 2 ∧ Operand8.l ≠ .m := by decide

theorem witness_LxiPutsItsImmediate : CanAdvance (stateAt 0xFFFC#16 0x0000#16) 3 := by decide

theorem witness_LdaAndLdaxLoadA :
    CanAdvance (stateAt 0xFFFC#16 0x0000#16) 3 ∧ CanAdvance (stateAt 0xFFFE#16 0x0000#16) 1 := by decide

theorem witness_StaAndStaxStoreA :
    CanAdvance (stateAt 0xFFFC#16 0x0000#16) 3 ∧ CanAdvance (stateAt 0xFFFE#16 0x0000#16) 1 := by decide

theorem witness_LhldAndShldMoveAWord :
    CanAdvance (stateAt 0xFFFC#16 0x0000#16) 3 ∧ WordFits (stateAt 0xFFFC#16 0x0000#16) 0xFFFE#16
    ∧ WordFits (wrapAt 0xFFFF#16 0x0000#16) 0xFFFF#16
    ∧ (stateAt 0xFFFC#16 0x0000#16).cfg.wrap16 = .fault := by decide

theorem witness_XchgAndSphl : CanAdvance (stateAt 0xFFFE#16 0x0000#16) 1 := by decide

theorem witness_XthlExchangesTheTopOfTheStack :
    let s := stateAt 0xFFFE#16 0xFFFE#16
    CanAdvance s 1 ∧ WordFits s s.sp ∧ (stateAt 0xFFFE#16 0xFFFF#16).cfg.wrap16 = .fault := by decide

theorem witness_PushStoresAPair :
    let s := stateAt 0xFFFE#16 0x0002#16
    CanPush s ∧ CanAdvance s 1 ∧ CanPush (wrapAt 0xFFFF#16 0x0000#16)
    ∧ (stateAt 0xFFFE#16 0x0001#16).sp.toNat < 2
    ∧ (stateAt 0xFFFF#16 0x0002#16).pc.toNat = 0xFFFF ∧ s.cfg.wrap16 = .fault := by decide

theorem witness_PopLoadsAPair :
    let s := stateAt 0xFFFE#16 0xFFFD#16
    CanPop s ∧ CanAdvance s 1 ∧ s.cfg.wrap16 = .fault
    ∧ (stateAt 0xFFFE#16 0xFFFE#16).sp.toNat = 0xFFFE
    ∧ (stateAt 0xFFFE#16 0xFFFF#16).sp.toNat = 0xFFFF := by decide

theorem witness_PopUndoesPushAndReturnUndoesCall :
    let s := stateAt 0xFFFC#16 0x0002#16
    CanPush s ∧ CanAdvance s 2 ∧ CanAdvance s 3
    ∧ (after (holding s [0xC5#8])).isSome = true
    ∧ (after (holding s [0xCD#8, 0x12#8, 0x34#8])).isSome = true
    ∧ 0x0002#16 ∉ storeAddresses s (.push .b) ∧ 0xFFFF#16 ∉ storeAddresses s (.call 0x1234#16) := by
  decide

theorem witness_AdditionsAdd :
    CanAdvance (stateAt 0xFFFE#16 0x0000#16) 1 ∧ CanAdvance (stateAt 0xFFFD#16 0x0000#16) 2 := by decide

theorem witness_SubtractionsSubtract :
    CanAdvance (stateAt 0xFFFE#16 0x0000#16) 1 ∧ CanAdvance (stateAt 0xFFFD#16 0x0000#16) 2 := by decide

theorem witness_InrAddsOne :
    CanAdvance (stateAt 0xFFFE#16 0x0000#16) 1 ∧ Operand8.a ≠ .m := by decide

theorem witness_DcrSubtractsOne :
    CanAdvance (stateAt 0xFFFE#16 0x0000#16) 1 ∧ Operand8.a ≠ .m := by decide

theorem witness_DadAddsToHL : CanAdvance (stateAt 0xFFFE#16 0xFFFF#16) 1 := by decide

theorem witness_InxAddsOneToAPair :
    CanAdvance (stateAt 0xFFFE#16 0xFFFE#16) 1 ∧ (stateAt 0xFFFE#16 0xFFFE#16).sp.toNat ≠ 0xFFFF
    ∧ (stateAt 0xFFFE#16 0xFFFF#16).sp.toNat = 0xFFFF
    ∧ (stateAt 0xFFFE#16 0xFFFF#16).cfg.wrap16 = .fault := by decide

theorem witness_DcxSubtractsOneFromAPair :
    CanAdvance (stateAt 0xFFFE#16 0x0001#16) 1 ∧ (stateAt 0xFFFE#16 0x0001#16).sp.toNat ≠ 0
    ∧ (stateAt 0xFFFE#16 0x0000#16).sp.toNat = 0
    ∧ (stateAt 0xFFFE#16 0x0000#16).cfg.wrap16 = .fault := by decide

theorem witness_LogicalInstructions :
    CanAdvance (stateAt 0xFFFE#16 0x0000#16) 1 ∧ CanAdvance (stateAt 0xFFFD#16 0x0000#16) 2 := by decide

theorem witness_RotatesMoveOneBit : CanAdvance (stateAt 0xFFFE#16 0x0000#16) 1 := by decide

theorem witness_ComparesSetFlagsOnly :
    CanAdvance (stateAt 0xFFFE#16 0x0000#16) 1 ∧ CanAdvance (stateAt 0xFFFD#16 0x0000#16) 2 := by decide

theorem witness_CmaCmcStc : CanAdvance (stateAt 0xFFFE#16 0x0000#16) 1 := by decide

theorem witness_JumpsSetPC :
    (0xC2#8, Instr.jnz, 6, false) ∈ conditionalJumps
    ∧ (stateAt 0xFFFC#16 0x0000#16).flag.getLsbD 6 = false
    ∧ ({ stateAt 0xFFFC#16 0x0000#16 with flag := 0x40#8 } : State).flag.getLsbD 6 ≠ false
    ∧ CanAdvance (stateAt 0xFFFC#16 0x0000#16) 3
    ∧ 0xFFFF < (stateAt 0xFFFD#16 0x0000#16).pc.toNat + 3 ∧ defaultConfig.wrap16 = .fault :=
  ⟨.head _, rfl, by decide, by decide, by decide, rfl⟩

theorem witness_CallsPushTheReturnAddress :
    (0xCD#8 : Byte) = opcodeByte (.call 0x1234#16)
    ∧ (0xC4#8, Instr.cnz, 6, false) ∈ conditionalCalls
    ∧ (stateAt 0xFFFC#16 0x0002#16).flag.getLsbD 6 = false
    ∧ ({ stateAt 0xFFFC#16 0x0002#16 with flag := 0x40#8 } : State).flag.getLsbD 6 ≠ false
    ∧ CanAdvance (stateAt 0xFFFC#16 0x0002#16) 3 ∧ CanPush (stateAt 0xFFFC#16 0x0002#16)
    ∧ (stateAt 0xFFFC#16 0x0001#16).sp.toNat < 2
    ∧ 0xFFFF < (stateAt 0xFFFD#16 0x0002#16).pc.toNat + 3 ∧ defaultConfig.wrap16 = .fault :=
  ⟨rfl, .head _, rfl, by decide, by decide, by decide, by decide, by decide, rfl⟩

theorem witness_ReturnsPopPC :
    (0xC0#8, Instr.rnz, 6, false) ∈ conditionalReturns
    ∧ (stateAt 0xFFFE#16 0xFFFD#16).flag.getLsbD 6 = false
    ∧ ({ stateAt 0xFFFE#16 0xFFFD#16 with flag := 0x40#8 } : State).flag.getLsbD 6 ≠ false
    ∧ CanPop (stateAt 0xFFFE#16 0xFFFD#16) ∧ CanAdvance (stateAt 0xFFFE#16 0xFFFD#16) 1
    ∧ (stateAt 0xFFFF#16 0xFFFF#16).sp.toNat = 0xFFFF ∧ (stateAt 0xFFFF#16 0xFFFE#16).sp.toNat = 0xFFFE
    ∧ (stateAt 0xFFFF#16 0xFFFE#16).pc.toNat = 0xFFFF ∧ defaultConfig.wrap16 = .fault :=
  ⟨.head _, rfl, by decide, by decide, by decide, by decide, by decide, by decide, rfl⟩

theorem witness_RstCallsItsVector :
    (stateAt 0xFFFE#16 0x0002#16).cfg.rstPushes = true
    ∧ CanAdvance (stateAt 0xFFFE#16 0x0002#16) 1 ∧ CanPush (stateAt 0xFFFE#16 0x0002#16)
    ∧ ({ State.reset with cfg := { defaultConfig with rstPushes := false } } : State).cfg.rstPushes
      = false := by decide

theorem witness_HltSetsTheHaltLatch :
    CanAdvance (stateAt 0xFFFE#16 0x0000#16) 1 ∧ (stateAt 0xFFFF#16 0x0000#16).pc.toNat = 0xFFFF
    ∧ (stateAt 0xFFFF#16 0x0000#16).cfg.wrap16 = .fault := by decide

theorem witness_DaaFollowsItsMode :
    State.reset.cfg.daaMode = .fault
    ∧ ({ State.reset with cfg := { defaultConfig with daaMode := .datasheet } } : State).cfg.daaMode
      = .datasheet
    ∧ CanAdvance (stateAt 0xFFFE#16 0x0000#16) 1 := by decide

theorem witness_InAndOutFollowTheirMode :
    State.reset.cfg.ioMode = .fault
    ∧ ({ State.reset with cfg := { defaultConfig with ioMode := .datasheet } } : State).cfg.ioMode
      = .datasheet
    ∧ CanAdvance (stateAt 0xFFFD#16 0x0000#16) 2 := by decide

theorem witness_NopAndTheUnimplementedInstructions : CanAdvance (stateAt 0xFFFE#16 0x0000#16) 1 := by decide

end Sys2Proof.Tests
end

section
/-! SUPPORT. What an instruction can do to the configuration and the fault latch, what a run keeps, and the proofs of the two statements on them (00_scope.md R7, R10, R11). -/

namespace Sys2Proof.Machine

/-! ### Computations that may raise -/

/-- A sequence whose first part gives a value is the rest on that value. -/
theorem bind_of_ok {α β : Type} {x : Except Raise α} {v : α} {f : α → Except Raise β}
    {y : Except Raise β} (hx : x = .ok v) (hf : f v = y) : (x >>= f) = y := by
  rw [hx, bind_ok, hf]

/-- What a computation that may raise gives: a value with `Q`, or a raise with `E`. -/
def Meets {α : Type} (Q : α → Prop) (E : Raise → Prop) : Except Raise α → Prop
  | .ok v => Q v
  | .error f => E f

/-- The rule of a sequence: what the first part gives is what the rest may assume. -/
theorem Meets.bind {α β : Type} {P : α → Prop} {Q : β → Prop} {E : Raise → Prop}
    {x : Except Raise α} {f : α → Except Raise β} (hx : Meets P E x)
    (hf : ∀ v, P v → Meets Q E (f v)) : Meets Q E (x >>= f) := by
  cases x with
  | ok v => exact hf v hx
  | error r => exact hx

/-- A raise that the rules allow: a bounds fault needs `WRAP16 = Fault` and a value outside [0, 0xFFFF] (R10, R11). -/
def Raise.Allowed (cfg : Config) : Raise → Prop
  | .unknownOpcode => True
  | .notImplemented => True
  | .addressOutOfBounds x => cfg.wrap16 = .fault ∧ (x < 0 ∨ 0xFFFF < x)
  | .registerOutOfRange _ x => cfg.wrap16 = .fault ∧ (x < 0 ∨ 0xFFFF < x)

/-- `t` has the configuration and the fault latch of `s`. -/
def KeepsCfgAndFault (s t : State) : Prop := t.cfg = s.cfg ∧ t.fault = s.fault

/-- What the body of every instruction gives in the state `s`: a state with the same configuration and fault latch, or an allowed raise. -/
abbrev Staged (s : State) (body : Except Raise State) : Prop :=
  Meets (KeepsCfgAndFault s) (Raise.Allowed s.cfg) body

/-! ### Every shared operation is staged -/

theorem a16_meets (cfg : Config) (x : Int) : Meets (fun _ => True) (Raise.Allowed cfg) (a16 cfg x) := by
  obtain h | ⟨hw, hx, h⟩ := a16_cases cfg x
  · rw [h]
    trivial
  · rw [h]
    exact ⟨hw, hx⟩

theorem v16_meets (cfg : Config) (r : WideReg) (x : Int) :
    Meets (fun _ => True) (Raise.Allowed cfg) (v16 cfg r x) := by
  obtain h | ⟨hw, hx, h⟩ := v16_cases cfg r x
  · rw [h]
    trivial
  · rw [h]
    exact ⟨hw, hx⟩

theorem read16_meets (s : State) (x : Int) :
    Meets (fun _ => True) (Raise.Allowed s.cfg) (read16 s x) :=
  (a16_meets s.cfg x).bind fun _ _ => (a16_meets s.cfg (x + 1)).bind fun _ _ => trivial

theorem write16_staged (s : State) (x : Int) (v : Word) : Staged s (write16 s x v) :=
  (a16_meets s.cfg x).bind fun _ _ => (a16_meets s.cfg (x + 1)).bind fun _ _ => ⟨rfl, rfl⟩

theorem push16_staged (s : State) (v : Word) : Staged s (push16 s v) :=
  (write16_staged s _ v).bind fun _ ht => (v16_meets s.cfg .sp _).bind fun _ _ => ht

theorem pop16_meets (s : State) :
    Meets (fun p => KeepsCfgAndFault s p.2) (Raise.Allowed s.cfg) (pop16 s) :=
  (read16_meets s _).bind fun _ _ => (v16_meets s.cfg .sp _).bind fun _ _ => ⟨rfl, rfl⟩

theorem advance_staged {s t : State} (n : Nat) (h : KeepsCfgAndFault s t) :
    Staged s (advance n t) := by
  obtain ⟨hcfg, hfault⟩ := h
  have hpc : Meets (fun _ => True) (Raise.Allowed s.cfg) (pcAfter t n) := hcfg ▸ v16_meets t.cfg .pc _
  exact hpc.bind fun _ _ => ⟨hcfg, hfault⟩

theorem stepPair_staged (s : State) (rp : Pair) (delta : Int) : Staged s (stepPair s rp delta) := by
  cases rp with
  | b | d | h => exact ⟨rfl, rfl⟩
  | sp => exact (v16_meets s.cfg .sp _).bind fun _ _ => ⟨rfl, rfl⟩

theorem jumpIf_staged (s : State) (cc : Cond) (x : Word) : Staged s (jumpIf s cc x) := by
  unfold jumpIf
  split
  · exact ⟨rfl, rfl⟩
  · exact advance_staged 3 ⟨rfl, rfl⟩

theorem callTo_staged (s : State) (n : Nat) (x : Word) : Staged s (callTo s n x) :=
  (v16_meets s.cfg .pc _).bind fun _ _ => (push16_staged s _).bind fun _ ht => ht

theorem callIf_staged (s : State) (cc : Cond) (x : Word) : Staged s (callIf s cc x) := by
  unfold callIf
  split
  · exact callTo_staged s 3 x
  · exact advance_staged 3 ⟨rfl, rfl⟩

theorem returnFrom_staged (s : State) : Staged s (returnFrom s) :=
  (pop16_meets s).bind fun _ ht => ht

theorem returnIf_staged (s : State) (cc : Cond) : Staged s (returnIf s cc) := by
  unfold returnIf
  split
  · exact returnFrom_staged s
  · exact advance_staged 1 ⟨rfl, rfl⟩

theorem restart_staged (s : State) (n : BitVec 3) : Staged s (restart s n) := by
  unfold restart
  split
  · exact callTo_staged s 1 _
  · exact ⟨rfl, rfl⟩

/-! ### What an instruction and a step can do -/

/-- The result of an instruction is a staged body, committed. -/
def CommitsStaged (i : Instr) (s : State) (r : Result) : Prop :=
  ∃ body, r = commit (opcodeByte i) s body ∧ Staged s body

theorem transfer_commits {i : Instr} {s : State} {body : Except Raise State} (h : Staged s body) :
    CommitsStaged i s (transfer i s body) :=
  ⟨body, rfl, h⟩

theorem sequential_commits {i : Instr} {s : State} {body : Except Raise State} (h : Staged s body) :
    CommitsStaged i s (sequential i s body) :=
  ⟨_, rfl, h.bind fun _ ht => advance_staged _ ht⟩

/-- Every instruction commits a staged body: the one case split over the instructions for what they do to the configuration and the latch. -/
theorem exec_commits (i : Instr) (s : State) : CommitsStaged i s (exec i s) := by
  cases i with
  | nop | rlc | rrc | ral | rar | cma | stc | cmc | hlt | xchg | sphl | stax | dad | ldax | sta | lda
  | add | adc | sub | sbb | ana | xra | ora | cmp | adi | aci | sui | sbi | ani | xri | ori | cpi =>
    exact sequential_commits ⟨rfl, rfl⟩
  | lxi rp d16 => exact sequential_commits ⟨writePair_cfg s rp d16, writePair_fault s rp d16⟩
  | mvi r d8 => exact sequential_commits ⟨writeOperand_cfg s r d8, writeOperand_fault s r d8⟩
  | mov dst src => exact sequential_commits ⟨writeOperand_cfg s dst _, writeOperand_fault s dst _⟩
  | inr r | dcr r => exact sequential_commits ⟨writeOperand_cfg s r _, writeOperand_fault s r _⟩
  | inx rp | dcx rp => exact sequential_commits (stepPair_staged s rp _)
  | shld a16 => exact sequential_commits (write16_staged s _ _)
  | lhld a16 => exact sequential_commits ((read16_meets s _).bind fun _ _ => ⟨rfl, rfl⟩)
  | xthl =>
    exact sequential_commits
      ((read16_meets s _).bind fun _ _ => (write16_staged s _ _).bind fun _ ht => ht)
  | push rp => exact sequential_commits (push16_staged s _)
  | pop rp =>
    exact sequential_commits ((pop16_meets s).bind fun p ht =>
      ⟨(writeStackPair_cfg p.2 rp p.1).trans ht.1, (writeStackPair_fault p.2 rp p.1).trans ht.2⟩)
  | daa =>
    refine sequential_commits ?_
    cases s.cfg.daaMode
    · trivial
    · exact ⟨rfl, rfl⟩
  | inp d8 | out d8 =>
    refine sequential_commits ?_
    cases s.cfg.ioMode
    · trivial
    · exact ⟨rfl, rfl⟩
  | undefined op => exact transfer_commits (body := .error .unknownOpcode) trivial
  | rim | sim | ei | di => exact transfer_commits (body := .error .notImplemented) trivial
  | jmp x => exact transfer_commits (body := .ok { s with pc := x }) ⟨rfl, rfl⟩
  | pchl => exact transfer_commits (body := .ok { s with pc := regHL s }) ⟨rfl, rfl⟩
  | jnz x | jz x | jnc x | jc x | jpo x | jpe x | jp x | jm x =>
    exact transfer_commits (jumpIf_staged s _ x)
  | call x => exact transfer_commits (callTo_staged s 3 x)
  | cnz x | cz x | cnc x | cc x | cpo x | cpe x | cp x | cm x =>
    exact transfer_commits (callIf_staged s _ x)
  | ret => exact transfer_commits (returnFrom_staged s)
  | rnz | rz | rnc | rc | rpo | rpe | rp | rm => exact transfer_commits (returnIf_staged s _)
  | rst n => exact transfer_commits (restart_staged s n)

/-- Everything an instruction can do to the configuration and the latch: keep both, or take an allowed raise. -/
theorem exec_next {i : Instr} {s t : State} (h : exec i s = .next t) :
    KeepsCfgAndFault s t ∨ ∃ f, f.Allowed s.cfg ∧ t = takeFault s (opcodeByte i) f := by
  obtain ⟨body, hexec, hbody⟩ := exec_commits i s
  obtain rfl | ⟨f, rfl, rfl⟩ := commit_next (hexec.symm.trans h)
  · exact .inl hbody
  · exact .inr ⟨f, hbody, rfl⟩

theorem exec_cfg {i : Instr} {s t : State} (h : exec i s = .next t) : t.cfg = s.cfg := by
  obtain ⟨hcfg, -⟩ | ⟨f, -, rfl⟩ := exec_next h
  · exact hcfg
  · exact takeFault_cfg s _ f

theorem fetch8_meets (s : State) (k : Nat) :
    Meets (fun _ => True) (Raise.Allowed s.cfg) (fetch8 s k) :=
  (a16_meets s.cfg _).bind fun _ _ => trivial

theorem fetch_meets (s : State) : Meets (fun _ => True) (Raise.Allowed s.cfg) (fetch s) := by
  unfold fetch
  split
  · trivial
  · exact (fetch8_meets s 1).bind fun _ _ => trivial
  · exact (fetch8_meets s 1).bind fun _ _ => (fetch8_meets s 2).bind fun _ _ => trivial

/-- Everything a step can do to the configuration and the latch. It answers a next state only with no fault latched (R316). -/
theorem step_next {s t : State} (h : step s = .next t) :
    s.fault = none ∧ (KeepsCfgAndFault s t ∨ ∃ op f, Raise.Allowed s.cfg f ∧ t = takeFault s op f) := by
  cases hf : s.fault with
  | some r =>
    rw [step_latched hf] at h
    cases h
  | none =>
    refine ⟨rfl, ?_⟩
    have hfetch := fetch_meets s
    rw [step_running hf] at h
    cases hi : fetch s with
    | error f =>
      rw [hi] at h hfetch
      cases h
      exact .inr ⟨_, f, hfetch, rfl⟩
    | ok i =>
      rw [hi] at h
      exact (exec_next h).imp id fun ⟨f, hf⟩ => ⟨_, f, hf⟩

theorem step_cfg {s t : State} (h : step s = .next t) : t.cfg = s.cfg := by
  obtain ⟨-, ⟨hcfg, -⟩ | ⟨op, f, -, rfl⟩⟩ := step_next h
  · exact hcfg
  · exact takeFault_cfg s op f

/-- With `WRAP16 = Wrap` the allowed raises are the two without a bound (R10, R11). -/
theorem Raise.Allowed.kind_of_wrap {cfg : Config} {f : Raise} (h : f.Allowed cfg)
    (hwrap : cfg.wrap16 = .wrap) :
    raiseKind f = .unknownOpcode ∨ raiseKind f = .notImplemented := by
  cases f with
  | unknownOpcode => exact .inl rfl
  | notImplemented => exact .inr rfl
  | addressOutOfBounds | registerOutOfRange => simp [Raise.Allowed, hwrap] at h

/-! ### What every step keeps, every run keeps -/

/-- A step call leaves the state of the step, or the state it was called in. -/
theorem hostStep_state (s : State) : step s = .next (hostStep s).2 ∨ (hostStep s).2 = s := by
  unfold hostStep
  split
  · next t ht =>
    refine .inl (ht.trans ?_)
    cases t.fault <;> rfl
  · exact .inr rfl
  · exact .inr rfl

section
variable {P : State → Prop} (hstep : ∀ s t, P s → step s = .next t → P t)
include hstep

theorem hostStep_keeps {s : State} (hs : P s) : P (hostStep s).2 := by
  obtain h | h := hostStep_state s
  · exact hstep s _ hs h
  · rwa [h]

theorem runLoop_keeps (n : Nat) {s : State} (hs : P s) : P (runLoop n s).2 := by
  induction n generalizing s with
  | zero => exact hs
  | succ n ih =>
    have hnext := hostStep_keeps hstep hs
    cases hcall : hostStep s with
    | mk report t =>
      rw [hcall] at hnext
      cases report with
      | fault r | refused r => simpa only [runLoop, hcall] using hnext
      | ok =>
        simp only [runLoop, hcall]
        split
        · exact hnext
        · exact ih hnext

theorem runFor_keeps (n : Nat) {s : State} (hs : P s) (hstart : P (runStart s)) :
    P (runFor n s).2 := by
  unfold runFor
  split
  · exact hs
  · exact runLoop_keeps hstep n hstart

theorem loopEnds_keeps {s u : State} {r : RunReport} (h : LoopEnds s r u) (hs : P s) : P u := by
  induction h with
  | fault h | halted h =>
    have hnext := hostStep_keeps hstep hs
    rwa [h] at hnext
  | again h _ _ ih =>
    have hnext := hostStep_keeps hstep hs
    rw [h] at hnext
    exact ih hnext

theorem runEnds_keeps {s u : State} {r : RunReport} (h : RunEnds s r u) (hs : P s)
    (hstart : P (runStart s)) : P u := by
  unfold RunEnds at h
  split at h
  · obtain ⟨-, rfl⟩ := h
    exact hs
  · exact loopEnds_keeps hstep h hstart

end

/-! ### The host's writes -/

theorem setRegister_cfg {s t : State} {r : RegName} {v : Int} (h : setRegister s r v = .ok t) :
    t.cfg = s.cfg := by
  cases r with
  | a | b | c | d | e | h | l | flag =>
    cases h
    rfl
  | sp | pc =>
    unfold setRegister at h
    cases hv : hostWord v <;> rw [hv] at h <;> cases h
    rfl

theorem hostSetReg_cfg {s t : State} {name : String} {v : Int} (h : hostSetReg s name v = .ok t) :
    t.cfg = s.cfg := by
  unfold hostSetReg at h
  split at h
  · cases h
  · exact setRegister_cfg h

theorem hostLoadProgram_cfg {s t : State} {bytes : List Nat} (h : hostLoadProgram s bytes = .ok t) :
    t.cfg = s.cfg := by
  unfold hostLoadProgram at h
  split at h <;> cases h
  rfl

theorem hostSetMem_cfg {s t : State} {x v : Int} (h : hostSetMem s x v = .ok t) :
    t.cfg = s.cfg := by
  unfold hostSetMem at h
  split at h <;> cases h
  rfl

theorem hostSetPort_cfg {s t : State} {p v : Int} (h : hostSetPort s p v = .ok t) :
    t.cfg = s.cfg := by
  unfold hostSetPort at h
  split at h
  · split at h <;> cases h
    rfl
  · cases h

theorem hostSetFlag_cfg {s t : State} {i x : Int} (h : hostSetFlag s i x = .ok t) :
    t.cfg = s.cfg := by
  unfold hostSetFlag at h
  split at h
  · split at h <;> cases h
    rfl
  · cases h

end Sys2Proof.Machine

open Sys2Proof Sys2Proof.Machine

/-- Settles O17: a bounds fault is an allowed raise only with `WRAP16 = Fault`. -/
theorem wrapModeHasNoBoundsFault : Obligations.WrapModeHasNoBoundsFault := by
  intro s t r hwrap hstep hr
  obtain ⟨hnone, ⟨-, hsame⟩ | ⟨op, f, hallowed, rfl⟩⟩ := step_next hstep
  · rw [hsame, hnone] at hr
    cases hr
  · cases hr
    exact hallowed.kind_of_wrap hwrap

/-- Settles O13: an instruction keeps the configuration, and so does a step, every run, by its steps, and each write of the host. -/
theorem configurationNeverChanges : Obligations.ConfigurationNeverChanges := by
  have hstep (c : Config) (s t : State) (hs : s.cfg = c) (h : step s = .next t) : t.cfg = c :=
    (step_cfg h).trans hs
  refine ⟨fun _ _ _ => exec_cfg, fun _ _ => step_cfg, fun s => hostStep_keeps (hstep s.cfg) rfl,
    fun s n => runFor_keeps (hstep s.cfg) n rfl rfl,
    fun s u report h => runEnds_keeps (hstep s.cfg) h rfl rfl, fun s t => ?_, rfl⟩
  exact ⟨rfl, fun _ => hostLoadProgram_cfg, fun _ _ => hostSetMem_cfg, fun _ _ => hostSetPort_cfg,
    fun _ _ => hostSetReg_cfg, fun _ _ => hostSetFlag_cfg⟩

end

section
/-! SUPPORT. The PC advance past 0xFFFF, and the proof of its statement (00_scope.md R22). -/

namespace Sys2Proof.Machine

/-- A sequential instruction whose body gives a state takes the PC fault past 0xFFFF (R22, R314). -/
theorem sequential_pcFault {i : Instr} {s t : State} {body : Except Raise State}
    (hw : s.cfg.wrap16 = .fault) (hn : 0xFFFF < s.pc.toNat + (encode i).length)
    (hbody : body = .ok t) (hcfg : t.cfg = s.cfg) (hpc : t.pc = s.pc) :
    sequential i s body = .next (pcFault s (opcodeByte i) (encode i).length) :=
  sequential_raises_pc hbody hcfg hpc hw hn

/-- A conditional transfer that is not taken does the same. -/
theorem transfer_pcFault {i : Instr} {s : State} {body : Except Raise State}
    (hw : s.cfg.wrap16 = .fault) (hn : 0xFFFF < s.pc.toNat + (encode i).length)
    (hbody : body = advance (encode i).length s) :
    transfer i s body = .next (pcFault s (opcodeByte i) (encode i).length) := by
  rw [transfer, hbody, advance_raises hw hn]
  rfl

/-- INX and DCX whose new SP, where SP is the operand, is in range. -/
theorem stepPair_in_range {s : State} {rp : Pair} {delta : Int}
    (h : rp = .sp → 0 ≤ s.sp.toNat + delta ∧ s.sp.toNat + delta ≤ 0xFFFF) :
    ∃ t, stepPair s rp delta = .ok t ∧ t.cfg = s.cfg ∧ t.pc = s.pc := by
  by_cases hrp : rp = .sp
  · subst hrp
    exact ⟨_, stepPair_sp (.inr (h rfl)), rfl, rfl⟩
  · exact ⟨_, stepPair_pair s delta hrp, writePair_cfg s rp _, writePair_pc s rp _⟩

/-- A word address that is not the last one has both its bytes (R10, R14). -/
theorem wordFits_of_ne {s : State} {x : Word} (h : (x != 0xFFFF#16) = true) : WordFits s x := by
  have hne : x ≠ 0xFFFF#16 := by simpa using h
  right
  bv_omega

end Sys2Proof.Machine

open Sys2Proof Sys2Proof.Machine

/-- Settles O18: each instruction that reaches the advance has a body that keeps the configuration and PC, or is a conditional transfer that is not taken. -/
theorem pcAdvancePastTheTopFaults : Obligations.PcAdvancePastTheTopFaults := by
  intro i s h hw hn
  cases i with
  | nop | rlc | rrc | ral | rar | cma | stc | cmc | hlt | xchg | sphl | stax | dad | ldax | sta | lda
  | add | adc | sub | sbb | ana | xra | ora | cmp | adi | aci | sui | sbi | ani | xri | ori | cpi =>
    exact sequential_pcFault hw hn rfl rfl rfl
  | lxi rp d16 => exact sequential_pcFault hw hn rfl (writePair_cfg s rp d16) (writePair_pc s rp d16)
  | mvi r d8 =>
    exact sequential_pcFault hw hn rfl (writeOperand_cfg s r d8) (writeOperand_pc s r d8)
  | mov dst src =>
    exact sequential_pcFault hw hn rfl (writeOperand_cfg s dst _) (writeOperand_pc s dst _)
  | inr r | dcr r =>
    exact sequential_pcFault hw hn rfl (writeOperand_cfg s r _) (writeOperand_pc s r _)
  | inx rp =>
    have hrange : rp = .sp → 0 ≤ (s.sp.toNat : Int) + 1 ∧ (s.sp.toNat : Int) + 1 ≤ 0xFFFF := by
      rintro rfl
      have hsp : s.sp.toNat < 0xFFFF := of_decide_eq_true h
      omega
    obtain ⟨t, hbody, hcfg, hpc⟩ := stepPair_in_range hrange
    exact sequential_pcFault hw hn hbody hcfg hpc
  | dcx rp =>
    have hrange : rp = .sp → 0 ≤ (s.sp.toNat : Int) + -1 ∧ (s.sp.toNat : Int) + -1 ≤ 0xFFFF := by
      rintro rfl
      have hsp : 0 < s.sp.toNat := of_decide_eq_true h
      omega
    obtain ⟨t, hbody, hcfg, hpc⟩ := stepPair_in_range hrange
    exact sequential_pcFault hw hn hbody hcfg hpc
  | shld a16 => exact sequential_pcFault hw hn (write16_ok _ (wordFits_of_ne h)) rfl rfl
  | lhld a16 =>
    exact sequential_pcFault hw hn (bind_of_ok (read16_ok (wordFits_of_ne h)) rfl) rfl rfl
  | xthl =>
    have hfit : WordFits s s.sp := wordFits_of_ne h
    exact sequential_pcFault hw hn
      (bind_of_ok (read16_ok hfit) (bind_of_ok (write16_ok _ hfit) rfl)) rfl rfl
  | push rp => exact sequential_pcFault hw hn (push16_ok _ (.inr (of_decide_eq_true h))) rfl rfl
  | pop rp =>
    exact sequential_pcFault hw hn (bind_of_ok (pop16_ok (.inr (of_decide_eq_true h))) rfl)
      (writeStackPair_cfg _ rp _) (writeStackPair_pc _ rp _)
  | daa =>
    have hmode : s.cfg.daaMode = .datasheet := by simpa [reachesPcAdvance] using h
    refine sequential_pcFault hw hn (t := setAccumulator s (decimalAdjust s)) ?_ rfl rfl
    rw [hmode]
  | inp d8 =>
    have hmode : s.cfg.ioMode = .datasheet := by simpa [reachesPcAdvance] using h
    refine sequential_pcFault hw hn (t := { s with a := portRead s d8 }) ?_ rfl rfl
    rw [hmode]
  | out d8 =>
    have hmode : s.cfg.ioMode = .datasheet := by simpa [reachesPcAdvance] using h
    refine sequential_pcFault hw hn (t := portWrite s d8 s.a) ?_ rfl rfl
    rw [hmode]
  | jnz x | jz x | jnc x | jc x | jpo x | jpe x | jp x | jm x =>
    exact transfer_pcFault hw hn (jumpIf_not x (Bool.not_eq_true' _ ▸ h))
  | cnz x | cz x | cnc x | cc x | cpo x | cpe x | cp x | cm x =>
    exact transfer_pcFault hw hn (callIf_not x (Bool.not_eq_true' _ ▸ h))
  | rnz | rz | rnc | rc | rpo | rpe | rp | rm =>
    exact transfer_pcFault hw hn (returnIf_not (Bool.not_eq_true' _ ▸ h))
  | undefined | rim | sim | jmp | pchl | call | ret | rst | ei | di => exact nomatch h

end

section
/-! SUPPORT. The opcode map's lengths and the fetch, and the proofs of the two statements about the step. -/

namespace Sys2Proof.Machine

/-! ### The lengths of the opcode map -/

/-- The instructions of a pattern have the pattern's length (R100, R101). -/
def LengthFits : Pattern → Prop
  | .i1 i => instrLength i = 1
  | .i2 f => ∀ d8, instrLength (f d8) = 2
  | .i3 f => ∀ d16, instrLength (f d16) = 3

/-- A property of the undefined bytes and of every cell of the map holds of every opcode byte's pattern (R111, R112, R114). -/
theorem patternOf_forall {P : Pattern → Prop} (hundefined : ∀ op, P (.i1 (.undefined op)))
    (hmap : ∀ row ∈ opcodeMap, ∀ cell ∈ row, ∀ p, cell = some p → P p) (op : Byte) :
    P (patternOf op) := by
  unfold patternOf
  split
  · next p hcell =>
    have hrow : opcodeMap.getD (op.toNat / 16) [] ∈ opcodeMap := by
      have hlt : op.toNat / 16 < opcodeMap.length := Nat.div_lt_of_lt_mul op.isLt
      rw [List.getD_eq_getElem?_getD, List.getElem?_eq_getElem hlt, Option.getD_some]
      exact List.getElem_mem hlt
    refine hmap _ hrow _ (List.mem_of_getElem? (i := op.toNat % 16) ?_) p rfl
    rw [List.getD_eq_getElem?_getD] at hcell
    generalize (opcodeMap.getD (op.toNat / 16) [])[op.toNat % 16]? = o at hcell
    cases o with
    | none => cases hcell
    | some cell => exact congrArg some hcell
  · exact hundefined op

theorem patternOf_lengthFits (op : Byte) : LengthFits (patternOf op) := by
  refine patternOf_forall (fun _ => rfl) ?_ op
  simp only [opcodeMap, opcodeRow0, opcodeRow1, opcodeRow2, opcodeRow3, opcodeRow4, opcodeRow5,
    opcodeRow6, opcodeRow7, opcodeRow8, opcodeRow9, opcodeRowA, opcodeRowB, opcodeRowC, opcodeRowD,
    opcodeRowE, opcodeRowF, sourceCells, List.cons_append, List.nil_append, List.forall_mem_cons,
    List.not_mem_nil, false_imp_iff, implies_true, reduceCtorEq, Option.some.injEq, forall_eq',
    and_true, true_and]
  simp [LengthFits, instrLength, encode, operandBytes]

/-- The instruction read at an opcode byte has the length of that byte (R102). -/
theorem instrLength_instrOf (op b1 b2 : Byte) : instrLength (instrOf op b1 b2) = lengthOf op := by
  have hlen := patternOf_lengthFits op
  unfold instrOf lengthOf
  cases hp : patternOf op <;> rw [hp] at hlen
  · exact hlen
  · exact hlen b1
  · exact hlen (concat b1 b2)

/-- Three bytes are enough for the decoder: it reads the instruction of the first. -/
theorem eq_instrOf_of_decode {op b1 b2 : Byte} {i : Instr} {rest : List Byte}
    (h : decode [op, b1, b2] = .ok (i, rest)) : i = instrOf op b1 b2 := by
  simp only [decode] at h
  unfold instrOf
  cases hp : patternOf op <;> rw [hp] at h <;> cases h <;> rfl

/-! ### The fetch by the pattern of the opcode byte -/

theorem fetch_i1 {s : State} {i : Instr} (hp : patternOf (memRead s s.pc) = .i1 i) :
    fetch s = .ok i := by
  simp [fetch, fetchOpcode, hp]

theorem fetch_i2 {s : State} {f : Byte → Instr} (hp : patternOf (memRead s s.pc) = .i2 f) :
    fetch s = (fetch8 s 1 >>= fun d8 => .ok (f d8)) := by
  simp [fetch, fetchOpcode, hp]

theorem fetch_i3 {s : State} {f : Word → Instr} (hp : patternOf (memRead s s.pc) = .i3 f) :
    fetch s = (fetch8 s 1 >>= fun b1 => fetch8 s 2 >>= fun b2 => .ok (f (concat b1 b2))) := by
  simp [fetch, fetchOpcode, hp]

/-- An operand byte at address 0x10000 (R313). -/
theorem fetch8_raises_top {s : State} {k : Nat} (hw : s.cfg.wrap16 = .fault)
    (h : s.pc.toNat + k = 0x10000) : fetch8 s k = .error (.addressOutOfBounds 0x10000) := by
  rw [fetch8_raises hw (by omega)]
  congr 2
  omega

/-- The fetch reads the instruction of the three bytes from PC, when all its own bytes have an address (R13, R86). -/
theorem fetch_ok {s : State} (h : CanFetch s (lengthOf (memRead s s.pc))) :
    fetch s = .ok (instrOf (memRead s s.pc) (memRead s (s.pc + 1)) (memRead s (s.pc + 2))) := by
  unfold lengthOf at h
  unfold instrOf
  cases hp : patternOf (memRead s s.pc) with
  | i1 i => exact fetch_i1 hp
  | i2 f =>
    rw [hp] at h
    rw [fetch_i2 hp, fetch8_ok h]
    rfl
  | i3 f =>
    rw [hp] at h
    have hfirst : CanFetch s 2 := h.imp id fun hle => Nat.le_of_succ_le hle
    rw [fetch_i3 hp, fetch8_ok hfirst, bind_ok, fetch8_ok h]
    rfl

/-- The fetch raises at address 0x10000, when the bytes reach past 0xFFFF (R313). -/
theorem fetch_raises {s : State} (hw : s.cfg.wrap16 = .fault)
    (hpast : 0x10000 < s.pc.toNat + lengthOf (memRead s s.pc)) :
    fetch s = .error (.addressOutOfBounds 0x10000) := by
  have hpc := s.pc.isLt
  unfold lengthOf at hpast
  cases hp : patternOf (memRead s s.pc) with
  | i1 i =>
    rw [hp, Pattern.length] at hpast
    omega
  | i2 f =>
    rw [hp, Pattern.length] at hpast
    rw [fetch_i2 hp, fetch8_raises_top hw (by omega), bind_error]
  | i3 f =>
    rw [hp, Pattern.length] at hpast
    rw [fetch_i3 hp]
    by_cases hlast : s.pc.toNat + 1 = 0x10000
    · rw [fetch8_raises_top hw hlast, bind_error]
    · have hfirst : CanFetch s 2 := .inr (by omega)
      rw [fetch8_ok hfirst, bind_ok, fetch8_raises_top hw (by omega), bind_error]

end Sys2Proof.Machine

open Sys2Proof Sys2Proof.Machine

/-- Settles O5: the fetch gives the decoded instruction, which the step executes. -/
theorem stepRunsTheDecodedInstruction : Obligations.StepRunsTheDecodedInstruction := by
  intro s i rest hrunning hdec hfetch
  obtain rfl := eq_instrOf_of_decode hdec
  rw [instrLength_instrOf] at hfetch
  rw [step_running hrunning, fetch_ok hfetch]

/-- Settles O6: the fetch raises before anything executes. -/
theorem operandFetchPastTheTopFaults : Obligations.OperandFetchPastTheTopFaults := by
  rintro op s hrunning hw rfl hpast
  rw [step_running hrunning, fetch_raises hw hpast]
  rfl

end

section
/-! SUPPORT. What a push leaves for the next pop, and the proof of the stack property (00_scope.md R15). -/

namespace Sys2Proof.Machine

/-! ### A pop after a push -/

/-- `t` is a state just after a push of `v` from `s` (R15): its stack pointer, configuration and memory are those of the push. -/
structure Pushed (s t : State) (v : Word) : Prop where
  cfg : t.cfg = s.cfg
  sp : t.sp = s.sp - 2
  mem : t.mem = (memWrite (memWrite s (s.sp - 2) (lowerByte s.cfg v)) (s.sp - 1)
    (upperByte s.cfg v)).mem

/-- Memory just after a push: the word at SP - 2 and SP - 1, and every other byte as before. -/
theorem Pushed.reads {s t : State} {v : Word} (h : Pushed s t v) (y : Word) :
    memRead t y = if y = s.sp - 1 then upperByte s.cfg v
      else if y = s.sp - 2 then lowerByte s.cfg v else memRead s y := by
  rw [← memRead_memWrite, ← memRead_memWrite, memRead, h.mem]
  rfl

/-- A pop just after a push gives the pushed word and the old SP (R15). -/
theorem Pushed.pop16 {s t : State} {v : Word} (h : Pushed s t v) (hroom : CanPush s) :
    pop16 t = .ok (v, { t with sp := s.sp }) := by
  have hpop : CanPop t := by
    unfold CanPop
    rw [h.cfg, h.sp]
    exact hroom.imp id fun _ => by bv_omega
  have hnext : s.sp - 2 + 1 = s.sp - 1 := by bv_omega
  have hback : s.sp - 2 + 2 = s.sp := by bv_omega
  have hlow : s.sp - 2 ≠ s.sp - 1 := by bv_omega
  rw [pop16_ok hpop, h.reads, h.reads, h.sp, h.cfg, hnext, hback, if_pos rfl, if_neg hlow,
    if_pos rfl, joinWord_bytes]

/-- A byte that is not one of the two pushed reads as before. -/
theorem Pushed.reads_other {s t : State} {v : Word} (h : Pushed s t v) {y : Word}
    (hy : y ∉ [s.sp - 2, s.sp - 1]) : memRead t y = memRead s y := by
  obtain ⟨hlow, hhigh⟩ : y ≠ s.sp - 2 ∧ y ≠ s.sp - 1 := by simpa using hy
  rw [h.reads, if_neg hhigh, if_neg hlow]

/-! ### The instructions that push and pop -/

/-- PUSH of a pair that raises nothing (R156, R157). -/
theorem exec_push {s t : State} {rp : StackPair} (hroom : CanPush s) (hadv : CanAdvance s 1)
    (h : exec (.push rp) s = .next t) :
    Pushed s t (readStackPair s rp)
      ∧ t = { s with mem := t.mem, sp := s.sp - 2, pc := s.pc + 1 } := by
  have hexec : exec (.push rp) s = .next _ := sequential_ok (push16_ok _ hroom) rfl rfl hadv
  rw [hexec] at h
  cases h
  exact ⟨⟨rfl, rfl, rfl⟩, rfl⟩

/-- POP just after a push that put `v` on the stack (R158, R159). -/
theorem Pushed.exec_pop {s t : State} {v : Word} {rp : StackPair} (h : Pushed s t v)
    (hroom : CanPush s) (hadv : CanAdvance t 1) :
    exec (.pop rp) t = .next { writeStackPair { t with sp := s.sp } rp v with pc := t.pc + 1 } :=
  sequential_ok (bind_of_ok (h.pop16 hroom) rfl) (writeStackPair_cfg _ rp v)
    (writeStackPair_pc _ rp v) hadv

/-- CALL that raises nothing (R263). -/
theorem exec_call {s t : State} {x : Word} (hroom : CanPush s) (hadv : CanAdvance s 3)
    (h : exec (.call x) s = .next t) :
    Pushed s t (s.pc + 3) ∧ t = { s with mem := t.mem, sp := s.sp - 2, pc := x } := by
  have hexec : exec (.call x) s = .next _ :=
    congrArg (commit (opcodeByte (.call x)) s) (callTo_ok x hadv hroom)
  rw [hexec] at h
  cases h
  exact ⟨⟨rfl, rfl, rfl⟩, rfl⟩

/-- RET just after a push that put `v` on the stack (R265). -/
theorem Pushed.exec_ret {s t : State} {v : Word} (h : Pushed s t v) (hroom : CanPush s) :
    exec .ret t = .next { t with sp := s.sp, pc := v } :=
  congrArg (commit (opcodeByte .ret) t) (bind_of_ok (h.pop16 hroom) rfl)

end Sys2Proof.Machine

open Sys2Proof Sys2Proof.Machine

/-- Settles O41: the state between the two instructions is `Pushed`, so the second pops what the first pushed. -/
theorem popUndoesPushAndReturnUndoesCall : Obligations.PopUndoesPushAndReturnUndoesCall := by
  intro s t hroom
  refine ⟨fun hadv hpush => ?_, fun x hadv hcall => ?_⟩
  · obtain ⟨hpushed, ht⟩ := exec_push hroom (hadv.imp id Nat.le_of_succ_le) hpush
    have hpc : t.pc = s.pc + 1 := by rw [ht]
    have hadv' : CanAdvance t 1 := by
      unfold CanAdvance
      rw [hpushed.cfg, hpc]
      exact hadv.imp id fun _ => by bv_omega
    refine ⟨_, hpushed.exec_pop hroom hadv', ?_, fun y hy => hpushed.reads_other hy⟩
    rw [ht]
    simp [writeStackPair, readStackPair, regBC, BitVec.add_assoc]
  · obtain ⟨hpushed, ht⟩ := exec_call hroom hadv hcall
    refine ⟨_, hpushed.exec_ret hroom, ?_, fun y hy => hpushed.reads_other hy⟩
    rw [ht]

end

section
/-! SUPPORT. What each instruction may write, and the canonical form it keeps, in one description of its effect, and the proof of the frame of every instruction (10_state.md R42, R45, R49 to R51, R53, R54; 20_memory.md R71). -/

namespace Sys2Proof.Machine

/-! ### The frame of a change of state -/

/-- What leads from `s` to `t` writes at most the listed parts, stores at most to the listed addresses, and keeps the canonical forms. PC and the fault latch are free. -/
structure Frame (parts : List Part) (addrs : List Word) (s t : State) : Prop where
  parts : ∀ p, p ∉ parts → SamePart s t p
  reads : ∀ x, x ∉ addrs → memRead t x = memRead s x
  memWf : Memory.wf memorySize s.mem = true → Memory.wf memorySize t.mem = true
  portWf : Memory.wf portCount s.port = true → Memory.wf portCount t.port = true

theorem SamePart.trans {s t u : State} {p : Part} (hst : SamePart s t p) (htu : SamePart t u p) :
    SamePart s u p := by
  cases p with
  | szp | reserved =>
    obtain ⟨h1, h2, h3⟩ := hst
    obtain ⟨k1, k2, k3⟩ := htu
    exact ⟨k1.trans h1, k2.trans h2, k3.trans h3⟩
  | _ => exact Eq.trans htu hst

section
variable {P Q : List Part} {A : List Word} {s t u : State}

theorem Frame.andThen (hst : Frame P A s t) (htu : Frame Q A t u) : Frame (P ++ Q) A s u where
  parts p hp := by
    rw [List.mem_append, not_or] at hp
    exact (hst.parts p hp.1).trans (htu.parts p hp.2)
  reads x hx := (htu.reads x hx).trans (hst.reads x hx)
  memWf h := htu.memWf (hst.memWf h)
  portWf h := htu.portWf (hst.portWf h)

theorem Frame.mono (h : Frame P A s t) (hsub : P ⊆ Q) : Frame Q A s t :=
  { h with parts := fun p hp => h.parts p fun hmem => hp (hsub hmem) }

/-- A change that touches neither memory nor ports. -/
theorem Frame.of_registers (hmem : t.mem = s.mem) (hport : t.port = s.port)
    (hparts : ∀ p, p ∉ P → SamePart s t p) : Frame P A s t where
  parts := hparts
  reads x _ := by rw [memRead, hmem, memRead]
  memWf h := by rwa [hmem]
  portWf h := by rwa [hport]

theorem Frame.refl (s : State) : Frame P A s s :=
  .of_registers rfl rfl fun p _ => by cases p <;> simp [SamePart]

/-- PC is no part of a frame. -/
theorem Frame.setPc (h : Frame P A s t) (pc : Word) : Frame P A s { t with pc := pc } :=
  ⟨h.parts, h.reads, h.memWf, h.portWf⟩

/-- The fault latch is no part of a frame. -/
theorem takeFault_frame (s : State) (op : Byte) (f : Raise) : Frame P A s (takeFault s op f) :=
  .of_registers rfl rfl (Frame.refl (P := P) (A := A) s).parts

end

/-! ### The frames of the shared writes -/

section
variable {A : List Word} (s : State)

theorem memWrite_frame {x : Word} (hx : x ∈ A) (v : Byte) : Frame [.mem] A s (memWrite s x v) where
  parts p hp := by
    cases p with
    | mem => exact absurd (List.mem_singleton_self _) hp
    | szp | reserved => exact ⟨rfl, rfl, rfl⟩
    | _ => rfl
  reads y hy := by rw [memRead_memWrite, if_neg (ne_of_mem_of_not_mem hx hy).symm]
  memWf := memWrite_wf x v
  portWf := id

theorem portWrite_frame (p v : Byte) : Frame [.port] A s (portWrite s p v) where
  parts q hq := by
    cases q with
    | port => exact absurd (List.mem_singleton_self _) hq
    | szp | reserved => exact ⟨rfl, rfl, rfl⟩
    | _ => rfl
  reads _ _ := rfl
  memWf := id
  portWf := portWrite_wf p v

theorem setA_frame (v : Byte) : Frame [.a] A s { s with a := v } :=
  .of_registers rfl rfl fun p hp => by cases p <;> simp_all [SamePart]

theorem setHalt_frame (x : Bool) : Frame [.halt] A s { s with isHalted := x } :=
  .of_registers rfl rfl fun p hp => by cases p <;> simp_all [SamePart]

theorem writePair_frame (rp : Pair) (v : Word) : Frame (pairParts rp) A s (writePair s rp v) :=
  .of_registers (writePair_mem s rp v) (writePair_port s rp v) fun p hp => by
    cases rp <;> cases p <;> simp_all [SamePart, pairParts, writePair]

theorem writeStackPair_frame (rp : StackPair) (v : Word) :
    Frame (stackPairParts rp) A s (writeStackPair s rp v) :=
  .of_registers (writeStackPair_mem s rp v) (writeStackPair_port s rp v) fun p hp => by
    cases rp <;> cases p <;> simp_all [SamePart, stackPairParts, writeStackPair]

theorem exchange_frame :
    Frame [.d, .e, .h, .l] A s { s with h := s.d, l := s.e, d := s.h, e := s.l } :=
  .of_registers rfl rfl fun p hp => by cases p <;> simp_all [SamePart]

/-- A register operand stores nothing, and M stores to the address HL (R103). -/
theorem writeOperand_frame (r : Operand8) (v : Byte) :
    Frame [operandPart r] (if r = .m then [regHL s] else []) s (writeOperand s r v) := by
  by_cases hr : r = .m
  · subst hr
    exact memWrite_frame s (List.mem_singleton_self _) v
  · rw [if_neg hr, writeOperand_reg s v hr]
    refine .of_registers rfl rfl fun p hp => ?_
    cases r <;> cases p <;> simp_all [SamePart, operandPart, assignReg]

/-! ### The frames of the flag groups (R50) -/

theorem setBit_getElem (f : Byte) (i k : Nat) (x : Bool) (hk : k < 8) :
    (setBit f i x)[k] = if k = i then x else f[k] := by
  rw [← BitVec.getLsbD_eq_getElem, ← BitVec.getLsbD_eq_getElem, setBit_getLsbD f i k x hk]

theorem withCY_frame (x : Bool) : Frame [.cy] A s { s with flag := withCY s.flag x } :=
  .of_registers rfl rfl fun p hp => by
    cases p <;> simp_all [SamePart, withCY, setBit_getElem]

theorem setFlags_frame (x : AluOut) : Frame [.cy, .ac, .szp] A s (setFlags s x) :=
  .of_registers rfl rfl fun p hp => by
    cases p <;> simp_all [SamePart, withSZP, withAC, withCY, setBit_getElem]

theorem setFlagsKeepCY_frame (x : AluOut) : Frame [.ac, .szp] A s (setFlagsKeepCY s x) :=
  .of_registers rfl rfl fun p hp => by
    cases p <;> simp_all [SamePart, withSZP, withAC, setBit_getElem]

theorem setAccumulator_frame (x : AluOut) : Frame [.a, .cy, .ac, .szp] A s (setAccumulator s x) :=
  ((setFlags_frame s x).andThen (setA_frame _ x.res)).mono (by simp)

theorem setRotate_frame (v : Byte) (cy : Bool) : Frame [.a, .cy] A s (setRotate s v cy) :=
  (setA_frame s v).andThen (withCY_frame { s with a := v } cy)

theorem stepOperand_frame (r : Operand8) (x : AluOut) :
    Frame [operandPart r, .ac, .szp] (if r = .m then [regHL s] else []) s (stepOperand s r x) :=
  (writeOperand_frame s r x.res).andThen (setFlagsKeepCY_frame _ x)

theorem addToHL_frame (v : Word) : Frame [.h, .l, .cy] A s (addToHL s v) :=
  (writePair_frame s .h _).andThen (withCY_frame (writePair s .h _) _)

end

/-! ### The frames of what may raise -/

/-- A computation from `s` that gives a state gives one within the frame. -/
abbrev Framed (parts : List Part) (addrs : List Word) (s : State) (body : Except Raise State) : Prop :=
  Meets (Frame parts addrs s) (Raise.Allowed s.cfg) body

/-- An address that `A16` gives is the integer, narrowed. -/
theorem a16_value (cfg : Config) (x : Int) :
    Meets (· = BitVec.ofInt 16 x) (Raise.Allowed cfg) (a16 cfg x) := by
  obtain h | ⟨hw, hx, h⟩ := a16_cases cfg x
  · rw [h]
    rfl
  · rw [h]
    exact ⟨hw, hx⟩

section
variable {A : List Word} (s : State)

/-- A data word is stored at its two addresses (R14). -/
theorem write16_framed {x : Int} {x0 x1 : Word} (v : Word) (h0 : BitVec.ofInt 16 x = x0)
    (h1 : BitVec.ofInt 16 (x + 1) = x1) : Framed [.mem] [x0, x1] s (write16 s x v) :=
  (a16_value s.cfg x).bind fun a0 ha0 => (a16_value s.cfg (x + 1)).bind fun a1 ha1 => by
    subst h0 h1 ha0 ha1
    exact ((memWrite_frame s (by simp) _).andThen (memWrite_frame _ (by simp) _)).mono (by simp)

theorem write16_word_framed (x v : Word) : Framed [.mem] [x, x + 1] s (write16 s x.toNat v) :=
  write16_framed s v (ofInt_toNat x) (ofInt_toNat_add x 1)

theorem push16_framed (v : Word) :
    Framed [.sp, .mem] [s.sp - 2, s.sp - 1] s (push16 s v) := by
  have h1 : BitVec.ofInt 16 ((s.sp.toNat : Int) - 2 + 1) = s.sp - 1 := by
    rw [show (s.sp.toNat : Int) - 2 + 1 = (s.sp.toNat : Int) - (1 : Nat) by omega]
    exact ofInt_sp_sub s.sp 1
  exact (write16_framed s v (ofInt_sp_sub s.sp 2) h1).bind fun t ht =>
    (v16_meets s.cfg .sp _).bind fun sp _ =>
      (ht.andThen (writePair_frame t .sp sp)).mono (by simp [pairParts])

theorem pop16_framed :
    Meets (fun p => Frame [.sp] A s p.2) (Raise.Allowed s.cfg) (pop16 s) :=
  (read16_meets s _).bind fun _ _ => (v16_meets s.cfg .sp _).bind fun sp _ =>
    writePair_frame s .sp sp

theorem advance_framed {P : List Part} (n : Nat) : Framed P A s (advance n s) :=
  (v16_meets s.cfg .pc _).bind fun pc _ => (Frame.refl s).setPc pc

theorem stepPair_framed (rp : Pair) (delta : Int) :
    Framed (pairParts rp) A s (stepPair s rp delta) := by
  cases rp with
  | b | d | h => exact writePair_frame s _ _
  | sp => exact (v16_meets s.cfg .sp _).bind fun sp _ => writePair_frame s .sp sp

theorem jumpIf_framed (cc : Cond) (x : Word) : Framed [] A s (jumpIf s cc x) := by
  unfold jumpIf
  split
  · exact (Frame.refl s).setPc x
  · exact advance_framed s 3

theorem callTo_framed (n : Nat) (x : Word) :
    Framed [.sp, .mem] [s.sp - 2, s.sp - 1] s (callTo s n x) :=
  (v16_meets s.cfg .pc _).bind fun _ _ => (push16_framed s _).bind fun _ ht => ht.setPc x

theorem callIf_framed (cc : Cond) (x : Word) :
    Framed [.sp, .mem] (if condHolds s cc then [s.sp - 2, s.sp - 1] else []) s (callIf s cc x) := by
  unfold callIf
  split
  · exact callTo_framed s 3 x
  · exact advance_framed s 3

theorem returnFrom_framed : Framed [.sp] A s (returnFrom s) :=
  (pop16_framed s).bind fun p ht => ht.setPc p.1

theorem returnIf_framed (cc : Cond) : Framed [.sp] A s (returnIf s cc) := by
  unfold returnIf
  split
  · exact returnFrom_framed s
  · exact advance_framed s 1

theorem restart_framed (n : BitVec 3) :
    Framed [.sp, .mem] (if s.cfg.rstPushes then [s.sp - 2, s.sp - 1] else []) s (restart s n) := by
  unfold restart
  split
  · exact callTo_framed s 1 _
  · exact (Frame.refl s).setPc _

end

/-! ### The frame of every instruction -/

/-- A result of `i` in `s` that is a next state is one within the frame of `i` in `s`. -/
def ResultFramed (i : Instr) (s : State) (r : Result) : Prop :=
  ∀ t, r = .next t → Frame (mayWrite i) (storeAddresses s i) s t

section
variable {i : Instr} {s : State} {body : Except Raise State}

theorem transfer_framed (h : Framed (mayWrite i) (storeAddresses s i) s body) :
    ResultFramed i s (transfer i s body) := by
  intro t ht
  obtain rfl | ⟨f, -, rfl⟩ := commit_next ht
  · exact h
  · exact takeFault_frame s _ f

theorem sequential_framed (h : Framed (mayWrite i) (storeAddresses s i) s body) :
    ResultFramed i s (sequential i s body) := by
  intro t ht
  obtain hok | ⟨f, -, rfl⟩ := commit_next ht
  · obtain ⟨u, rfl, hadv⟩ := bind_eq_ok hok
    rw [advance_eq_ok hadv]
    exact Frame.setPc h t.pc
  · exact takeFault_frame s _ f

end

/-- The one case split over the instructions for what each may write. -/
theorem exec_framed (i : Instr) (s : State) : ResultFramed i s (exec i s) := by
  cases i with
  | nop => exact sequential_framed (Frame.refl s)
  | add | adc | sub | sbb | ana | xra | ora | adi | aci | sui | sbi | ani | xri | ori =>
    exact sequential_framed (setAccumulator_frame s _)
  | cmp | cpi => exact sequential_framed (setFlags_frame s _)
  | rlc | rrc | ral | rar => exact sequential_framed (setRotate_frame s _ _)
  | cmc | stc => exact sequential_framed (withCY_frame s _)
  | cma | lda | ldax => exact sequential_framed (setA_frame s _)
  | inr r | dcr r => exact sequential_framed (stepOperand_frame s r _)
  | mvi r | mov r => exact sequential_framed (writeOperand_frame s r _)
  | dad => exact sequential_framed (addToHL_frame s _)
  | lxi rp d16 => exact sequential_framed (writePair_frame s rp d16)
  | inx rp | dcx rp => exact sequential_framed (stepPair_framed s rp _)
  | sphl => exact sequential_framed (writePair_frame s .sp _)
  | hlt => exact sequential_framed (setHalt_frame s true)
  | sta | stax => exact sequential_framed (memWrite_frame s (List.mem_singleton_self _) s.a)
  | shld x => exact sequential_framed (write16_word_framed s x _)
  | lhld x =>
    exact sequential_framed ((read16_meets s _).bind fun v _ => writePair_frame s .h v)
  | xchg => exact sequential_framed (exchange_frame s)
  | xthl =>
    exact sequential_framed ((read16_meets s _).bind fun v _ =>
      (write16_word_framed s s.sp _).bind fun t ht =>
        (ht.andThen (writePair_frame t .h v)).mono (by simp [pairParts, mayWrite]))
  | push rp => exact sequential_framed (push16_framed s _)
  | pop rp =>
    exact sequential_framed ((pop16_framed s).bind fun p ht =>
      ht.andThen (writeStackPair_frame p.2 rp p.1))
  | daa =>
    refine sequential_framed ?_
    cases s.cfg.daaMode
    · trivial
    · exact setAccumulator_frame s _
  | inp d8 =>
    refine sequential_framed ?_
    cases s.cfg.ioMode
    · trivial
    · exact setA_frame s _
  | out d8 =>
    refine sequential_framed ?_
    cases s.cfg.ioMode
    · trivial
    · exact portWrite_frame s d8 s.a
  | undefined op => exact transfer_framed (body := .error .unknownOpcode) trivial
  | rim | sim | ei | di => exact transfer_framed (body := .error .notImplemented) trivial
  | jmp x => exact transfer_framed (body := .ok _) ((Frame.refl s).setPc x)
  | pchl => exact transfer_framed (body := .ok _) ((Frame.refl s).setPc (regHL s))
  | jnz x | jz x | jnc x | jc x | jpo x | jpe x | jp x | jm x =>
    exact transfer_framed (jumpIf_framed s _ x)
  | call x => exact transfer_framed (callTo_framed s 3 x)
  | cnz x | cz x | cnc x | cc x | cpo x | cpe x | cp x | cm x =>
    exact transfer_framed (callIf_framed s _ x)
  | ret => exact transfer_framed (returnFrom_framed s)
  | rnz | rz | rnc | rc | rpo | rpe | rp | rm => exact transfer_framed (returnIf_framed s _)
  | rst n => exact transfer_framed (restart_framed s n)

end Sys2Proof.Machine

open Sys2Proof Sys2Proof.Machine

/-- Settles O14: the frame of every instruction gives both clauses. -/
theorem instructionsWriteOnlyTheirParts : Obligations.InstructionsWriteOnlyTheirParts := by
  intro i s t h
  have hframe := exec_framed i s t h
  exact ⟨hframe.parts, hframe.reads⟩

end

section
/-! SUPPORT. What every step and every host operation keeps of the canonical forms and the fault latch, and the proofs of the statements on the invariant (10_state.md R53, R54, R57; 60_exceptions.md R310, R330). -/

namespace Sys2Proof.Machine

/-! ### The invariant and the step -/

/-- A step that answers a next state took the fault of the fetch, or executed the instruction fetched (R354). -/
theorem step_next_cases {s t : State} (h : step s = .next t) :
    (∃ f, fetch s = .error f ∧ t = takeFault s (fetchOpcode s) f)
      ∨ ∃ i, fetch s = .ok i ∧ exec i s = .next t := by
  obtain ⟨hrunning, -⟩ := step_next h
  rw [step_running hrunning] at h
  cases hfetch : fetch s with
  | error f =>
    rw [hfetch] at h
    cases h
    exact .inl ⟨f, rfl, rfl⟩
  | ok i =>
    rw [hfetch] at h
    exact .inr ⟨i, rfl, h⟩

theorem step_frame {s t : State} (h : step s = .next t) : ∃ parts addrs, Frame parts addrs s t := by
  obtain ⟨f, -, rfl⟩ | ⟨i, -, hexec⟩ := step_next_cases h
  · exact ⟨[], [], takeFault_frame s _ f⟩
  · exact ⟨_, _, exec_framed i s t hexec⟩

/-- The record of an allowed raise is one that R310 describes. -/
theorem Raise.Allowed.consistent {cfg : Config} {f : Raise} (h : f.Allowed cfg) (pc : Word)
    (op : Byte) : (faultRecord pc op f).consistent = true := by
  cases f with
  | unknownOpcode | notImplemented => rfl
  | addressOutOfBounds x | registerOutOfRange r x =>
    obtain ⟨-, hx⟩ := h
    simp [FaultRecord.consistent, faultRecord, raiseKind, raiseInfo, kindCode, hx]

theorem step_latchConsistent {s t : State} (h : step s = .next t) : latchConsistent t = true := by
  obtain ⟨hrunning, ⟨-, hfault⟩ | ⟨op, f, hallowed, rfl⟩⟩ := step_next h
  · simp [latchConsistent, hfault, hrunning]
  · exact hallowed.consistent s.pc op

theorem step_keeps_stateInv {s t : State} (hs : StateInv s) (h : step s = .next t) : StateInv t := by
  obtain ⟨hmem, hport, -⟩ := hs
  obtain ⟨_, _, hframe⟩ := step_frame h
  exact ⟨hframe.memWf hmem, hframe.portWf hport, step_latchConsistent h⟩

/-! ### The invariant and the host's writes -/

theorem Memory.wf_loadFrom {size : Nat} {m : Memory} {x : Nat} {bytes : List Nat}
    (hfits : x + bytes.length ≤ size) (hm : Memory.wf size m = true) :
    Memory.wf size (loadFrom m x bytes) = true := by
  induction bytes generalizing m x with
  | nil => exact hm
  | cons v rest ih =>
    rw [List.length_cons] at hfits
    exact ih (by omega) (Memory.wf_write _ (by omega) hm)

section
variable {s t : State} (hs : StateInv s)
include hs

theorem hostLoadProgram_keeps_stateInv {bytes : List Nat} (h : hostLoadProgram s bytes = .ok t) :
    StateInv t := by
  obtain ⟨hmem, hrest⟩ := hs
  unfold hostLoadProgram at h
  split at h
  · cases h
  · cases h
    exact ⟨Memory.wf_loadFrom (by omega) hmem, hrest⟩

theorem hostSetMem_keeps_stateInv {x v : Int} (h : hostSetMem s x v = .ok t) : StateInv t := by
  obtain ⟨hmem, hrest⟩ := hs
  unfold hostSetMem at h
  split at h
  · cases h
    exact ⟨Memory.wf_write _ (by unfold memorySize; omega) hmem, hrest⟩
  · cases h

theorem hostSetPort_keeps_stateInv {p v : Int} (h : hostSetPort s p v = .ok t) : StateInv t := by
  obtain ⟨hmem, hport, hlatch⟩ := hs
  unfold hostSetPort at h
  split at h
  · split at h <;> cases h
    exact ⟨hmem, Memory.wf_write _ (by unfold portCount; omega) hport, hlatch⟩
  · cases h

theorem setRegister_keeps_stateInv {r : RegName} {v : Int} (h : setRegister s r v = .ok t) :
    StateInv t := by
  cases r with
  | a | b | c | d | e | h | l | flag =>
    cases h
    exact hs
  | sp | pc =>
    unfold setRegister at h
    cases hv : hostWord v <;> rw [hv] at h <;> cases h
    exact hs

theorem hostSetReg_keeps_stateInv {name : String} {v : Int} (h : hostSetReg s name v = .ok t) :
    StateInv t := by
  unfold hostSetReg at h
  split at h
  · cases h
  · exact setRegister_keeps_stateInv hs h

theorem hostSetFlag_keeps_stateInv {i x : Int} (h : hostSetFlag s i x = .ok t) : StateInv t := by
  unfold hostSetFlag at h
  split at h
  · split at h <;> cases h
    exact hs
  · cases h

end

end Sys2Proof.Machine

open Sys2Proof Sys2Proof.Machine

/-- Settles O10: nothing is stored and nothing is latched. -/
theorem invariantHoldsAtReset : Obligations.InvariantHoldsAtReset :=
  ⟨⟨Memory.wf_nil memorySize, Memory.wf_nil portCount, rfl⟩, rfl⟩

/-- Settles O11: the frame keeps the canonical forms, and a step latches allowed raises only. -/
theorem invariantIsKeptByEveryStep : Obligations.InvariantIsKeptByEveryStep :=
  fun _ _ => step_keeps_stateInv

/-- Settles O12: reset and each write keep the invariant, and the runs keep it by their steps. -/
theorem invariantIsKeptByTheHost : Obligations.InvariantIsKeptByTheHost := by
  intro s t hs
  have hstep (s t : State) : StateInv s → step s = .next t → StateInv t := step_keeps_stateInv
  obtain ⟨hreset, -⟩ := invariantHoldsAtReset
  exact ⟨hreset, fun _ => hostLoadProgram_keeps_stateInv hs, fun _ _ => hostSetMem_keeps_stateInv hs,
    fun _ _ => hostSetPort_keeps_stateInv hs, fun _ _ => hostSetReg_keeps_stateInv hs,
    fun _ _ => hostSetFlag_keeps_stateInv hs, hostStep_keeps hstep hs,
    fun n => runFor_keeps hstep n hs hs, fun _ _ h => runEnds_keeps hstep h hs hs⟩

end

section
/-! SUPPORT. Steps from two states that differ only in the halt latch and the ports, and the proofs of the two statements on them (10_state.md R51, R54; 20_memory.md R72). -/

namespace Sys2Proof.Machine

/-! ### The halt latch and the ports, replaced -/

/-- `s` with its halt latch and its ports replaced, each as a function of what it was. -/
def replaced (g : Bool → Bool) (k : Memory → Memory) (s : State) : State :=
  { s with isHalted := g s.isHalted, port := k s.port }

section
variable {g : Bool → Bool} {k : Memory → Memory} (s : State)

theorem replaced_cfg : (replaced g k s).cfg = s.cfg := rfl

theorem readOperand_replaced (r : Operand8) : readOperand (replaced g k s) r = readOperand s r := by
  cases r <;> rfl

theorem writeOperand_replaced (r : Operand8) (v : Byte) :
    writeOperand (replaced g k s) r v = replaced g k (writeOperand s r v) := by
  cases r <;> rfl

theorem condHolds_replaced (cc : Cond) : condHolds (replaced g k s) cc = condHolds s cc := by
  cases cc <;> rfl

/-! Every shared operation does the same in the replaced state. -/

theorem write16_replaced (x : Int) (v : Word) :
    write16 (replaced g k s) x v = replaced g k <$> write16 s x v := by
  simp only [write16, map_bind]
  rfl

theorem push16_replaced (v : Word) :
    push16 (replaced g k s) v = replaced g k <$> push16 s v := by
  rw [push16, write16_replaced, bind_map_left, push16, map_bind]
  simp only [map_bind]
  rfl

theorem pop16_replaced : pop16 (replaced g k s) = Prod.map id (replaced g k) <$> pop16 s := by
  simp only [pop16, map_bind]
  rfl

theorem advance_replaced (n : Nat) :
    advance n (replaced g k s) = replaced g k <$> advance n s := by
  simp only [advance, map_bind]
  rfl

theorem stepPair_replaced (rp : Pair) (delta : Int) :
    stepPair (replaced g k s) rp delta = replaced g k <$> stepPair s rp delta := by
  cases rp with
  | b | d | h => rfl
  | sp =>
    simp only [stepPair, map_bind]
    rfl

theorem callTo_replaced (n : Nat) (x : Word) :
    callTo (replaced g k s) n x = replaced g k <$> callTo s n x := by
  simp only [callTo, push16_replaced, bind_map_left, map_bind]
  rfl

theorem returnFrom_replaced : returnFrom (replaced g k s) = replaced g k <$> returnFrom s := by
  simp only [returnFrom, pop16_replaced, bind_map_left, map_bind]
  rfl

theorem jumpIf_replaced (cc : Cond) (x : Word) :
    jumpIf (replaced g k s) cc x = replaced g k <$> jumpIf s cc x := by
  rw [jumpIf, condHolds_replaced, advance_replaced, jumpIf, apply_ite (replaced g k <$> ·)]
  rfl

theorem callIf_replaced (cc : Cond) (x : Word) :
    callIf (replaced g k s) cc x = replaced g k <$> callIf s cc x := by
  rw [callIf, condHolds_replaced, callTo_replaced, advance_replaced, callIf,
    apply_ite (replaced g k <$> ·)]

theorem returnIf_replaced (cc : Cond) :
    returnIf (replaced g k s) cc = replaced g k <$> returnIf s cc := by
  rw [returnIf, condHolds_replaced, returnFrom_replaced, advance_replaced, returnIf,
    apply_ite (replaced g k <$> ·)]

theorem restart_replaced (n : BitVec 3) :
    restart (replaced g k s) n = replaced g k <$> restart s n := by
  rw [restart, replaced_cfg, callTo_replaced, restart, apply_ite (replaced g k <$> ·)]
  rfl

end

/-! ### Instructions and steps in the replaced state -/

/-- `r'` is the next state `f t` where `r` is the next state `t`. -/
def Mirrored (f : State → State) (r r' : Result) : Prop :=
  ∀ t, r = .next t → r' = .next (f t)

section
variable {g : Bool → Bool} {k : Memory → Memory} {i : Instr} {s : State}

theorem transfer_mirrored {body body' : Except Raise State} (h : body' = replaced g k <$> body) :
    Mirrored (replaced g k) (transfer i s body) (transfer i (replaced g k s) body') := by
  subst h
  intro t ht
  obtain rfl | ⟨f, rfl, rfl⟩ := commit_next ht <;> rfl

theorem sequential_mirrored {body body' : Except Raise State} (h : body' = replaced g k <$> body) :
    Mirrored (replaced g k) (sequential i s body) (sequential i (replaced g k s) body') := by
  refine transfer_mirrored (i := i) ?_
  simp only [h, bind_map_left, map_bind, advance_replaced]

/-- The one case split over the instructions for what each does with the halt latch and the ports: HLT sets the one, IN and OUT with `IO_MODE = Datasheet` use the other. -/
theorem exec_mirrored (hhalt : i = .hlt → g true = true)
    (hports : s.cfg.ioMode = .datasheet → k = id) :
    Mirrored (replaced g k) (exec i s) (exec i (replaced g k s)) := by
  cases i with
  | nop | rlc | rrc | ral | rar | cma | stc | cmc | xchg | sphl | sta | lda | adi | aci | sui | sbi
  | ani | xri | ori | cpi => exact sequential_mirrored rfl
  | hlt =>
    exact sequential_mirrored
      (congrArg (fun x => Except.ok { replaced g k s with isHalted := x }) (hhalt rfl).symm)
  | add r | adc r | sub r | sbb r | ana r | xra r | ora r | cmp r =>
    exact sequential_mirrored (by rw [readOperand_replaced]; rfl)
  | mvi r d8 => exact sequential_mirrored (congrArg Except.ok (writeOperand_replaced s r d8))
  | mov dst src =>
    exact sequential_mirrored (by rw [readOperand_replaced, writeOperand_replaced]; rfl)
  | inr r | dcr r =>
    exact sequential_mirrored
      (by rw [readOperand_replaced, stepOperand, writeOperand_replaced]; rfl)
  | stax rp | ldax rp | lxi rp | dad rp => cases rp <;> exact sequential_mirrored rfl
  | inx rp | dcx rp => exact sequential_mirrored (stepPair_replaced s rp _)
  | shld x => exact sequential_mirrored (write16_replaced s _ _)
  | lhld x => exact sequential_mirrored (by simp only [map_bind]; rfl)
  | xthl =>
    exact sequential_mirrored (by simp only [write16_replaced, bind_map_left, map_bind]; rfl)
  | push rp => cases rp <;> exact sequential_mirrored (push16_replaced s _)
  | pop rp =>
    cases rp <;> exact sequential_mirrored (by simp only [pop16_replaced, bind_map_left, map_bind]; rfl)
  | daa =>
    refine sequential_mirrored ?_
    rw [replaced_cfg]
    cases s.cfg.daaMode <;> rfl
  | inp d8 | out d8 =>
    refine sequential_mirrored ?_
    rw [replaced_cfg]
    cases hmode : s.cfg.ioMode with
    | fault => rfl
    | datasheet =>
      obtain rfl := hports hmode
      rfl
  | undefined | rim | sim | ei | di | jmp | pchl =>
    intro t ht
    cases ht
    rfl
  | jnz x | jz x | jnc x | jc x | jpo x | jpe x | jp x | jm x =>
    exact transfer_mirrored (jumpIf_replaced s _ x)
  | call x => exact transfer_mirrored (callTo_replaced s 3 x)
  | cnz x | cz x | cnc x | cc x | cpo x | cpe x | cp x | cm x =>
    exact transfer_mirrored (callIf_replaced s _ x)
  | ret => exact transfer_mirrored (returnFrom_replaced s)
  | rnz | rz | rnc | rc | rpo | rpe | rp | rm => exact transfer_mirrored (returnIf_replaced s _)
  | rst n => exact transfer_mirrored (restart_replaced s n)

end

set_option maxRecDepth 20000 in
/-- The decoder's instruction has the opcode byte it was read from, whatever its operand bytes, which the encoder's opcode byte does not look at. -/
theorem opcodeByte_instrOf (op b1 b2 : Byte) : opcodeByte (instrOf op b1 b2) = op :=
  (of_decide_eq_true rfl : ∀ op : Byte, opcodeByte (instrOf op b1 b2) = op) op

theorem opcodeByte_of_fetch {s : State} {i : Instr} (h : fetch s = .ok i) :
    opcodeByte i = memRead s s.pc := by
  by_cases hfits : CanFetch s (lengthOf (memRead s s.pc))
  · rw [fetch_ok hfits] at h
    cases h
    exact opcodeByte_instrOf _ _ _
  · obtain ⟨hwrap, hpast⟩ := not_or.mp hfits
    cases hw : s.cfg.wrap16 with
    | fault =>
      rw [fetch_raises hw (Nat.lt_of_not_le hpast)] at h
      cases h
    | wrap => exact absurd hw hwrap

/-- A step does the same in the replaced state, when its instruction is one that does. -/
theorem step_replaced {g : Bool → Bool} {k : Memory → Memory} {s t : State}
    (hhalt : memRead s s.pc = 0x76#8 → g true = true)
    (hports : s.cfg.ioMode = .datasheet → k = id) (h : step s = .next t) :
    step (replaced g k s) = .next (replaced g k t) := by
  obtain ⟨hrunning, -⟩ := step_next h
  have hrunning' : (replaced g k s).fault = none := hrunning
  have hfetch : fetch (replaced g k s) = fetch s := rfl
  rw [step_running hrunning', hfetch]
  obtain ⟨f, hf, rfl⟩ | ⟨i, hi, hexec⟩ := step_next_cases h
  · rw [hf]
    rfl
  · rw [hi]
    refine exec_mirrored (fun hhlt => hhalt ?_) hports t hexec
    rw [← opcodeByte_of_fetch hi, hhlt]
    rfl

/-- A step at HLT's byte sets the latch, whatever it was, or takes the fault of the PC advance (R269). -/
theorem step_hlt {s : State} (x : Bool) (hrunning : s.fault = none)
    (hop : memRead s s.pc = 0x76#8) :
    step { s with isHalted := x } = commit (opcodeByte .hlt) { s with isHalted := x }
      (pcAfter s 1 >>= fun pc => .ok { s with isHalted := true, pc := pc }) := by
  have hrunning' : ({ s with isHalted := x } : State).fault = none := hrunning
  have hfetch : fetch { s with isHalted := x } = .ok .hlt := by
    refine fetch_i1 ?_
    rw [show memRead { s with isHalted := x } s.pc = 0x76#8 from hop]
    rfl
  rw [step_running hrunning', hfetch]
  rfl

end Sys2Proof.Machine

open Sys2Proof Sys2Proof.Machine

/-- Settles O16: replacing the ports changes nothing else, and replacing them by themselves shows that the step keeps them. -/
theorem portsAreOutOfReachInFaultMode : Obligations.PortsAreOutOfReachInFaultMode := by
  intro s t ports hmode hstep
  have hreplaced (ports : Memory) :
      step { s with port := ports } = .next { t with port := ports } :=
    step_replaced (g := id) (k := fun _ => ports) (fun _ => rfl)
      (fun h => nomatch hmode.symm.trans h) hstep
  refine ⟨?_, hreplaced ports⟩
  have hsame : t = { t with port := s.port } := by
    simpa using hstep.symm.trans (hreplaced s.port)
  rw [hsame]

/-- Settles O15: at any other byte than HLT's, replacing the latch changes nothing else, and replacing it by itself shows that the step keeps it; HLT's step is written out. -/
theorem stepIgnoresTheHaltLatch : Obligations.StepIgnoresTheHaltLatch := by
  intro s t x hstep
  by_cases hop : memRead s s.pc = 0x76#8
  · obtain ⟨hrunning, -⟩ := step_next hstep
    have hself := (step_hlt s.isHalted hrunning hop).symm.trans hstep
    have hother := step_hlt x hrunning hop
    cases hpc : pcAfter s 1 with
    | ok pc =>
      rw [hpc] at hself hother
      cases hself
      exact ⟨true, hother, fun hne => absurd hop hne, fun _ _ => ⟨rfl, rfl⟩⟩
    | error f =>
      rw [hpc] at hself hother
      cases hself
      exact ⟨x, hother, fun hne => absurd hop hne, fun _ hnone => nomatch hnone⟩
  · have hreplaced (x : Bool) :
        step { s with isHalted := x } = .next { t with isHalted := x } :=
      step_replaced (g := fun _ => x) (k := id) (fun h => absurd h hop) (fun _ => rfl) hstep
    have hsame : t = { t with isHalted := s.isHalted } := by
      simpa using hstep.symm.trans (hreplaced s.isHalted)
    exact ⟨x, hreplaced x, fun _ => ⟨by rw [hsame], rfl⟩, fun h => absurd h hop⟩

end

section
/-! SUPPORT. Canonical memories, register pairs as numbers, the reset state, and the proofs of the three statements on them (10_state.md R43, R53, R54, R56). -/

namespace Sys2Proof.Machine

/-! ### Canonical memories that read alike -/

/-- Below its first index a canonical memory has no entry. -/
theorem Memory.read_below {size low x : Nat} {m : Memory} (hm : Memory.wfFrom size low m = true)
    (hx : x < low) : Memory.read m x = unlistedByte := by
  induction m generalizing low with
  | nil => rfl
  | cons cell rest ih =>
    obtain ⟨y, v⟩ := cell
    obtain ⟨hlow, -, -, hrest⟩ := (Memory.wfFrom_cons size low y v rest).mp hm
    rw [Memory.read_cons, if_neg (by omega)]
    exact ih hrest (by omega)

/-- The entries after the first one of a canonical memory, by the reads of all of it. -/
theorem Memory.read_tail {size low y : Nat} {v : Byte} {rest : Memory}
    (hcons : Memory.wfFrom size low ((y, v) :: rest) = true) (x : Nat) :
    Memory.read rest x = if y = x then unlistedByte else Memory.read ((y, v) :: rest) x := by
  obtain ⟨-, -, -, hrest⟩ := (Memory.wfFrom_cons size low y v rest).mp hcons
  split
  · next hyx => exact Memory.read_below hrest (by omega)
  · next hyx => rw [Memory.read_cons, if_neg hyx]

/-- A first entry is seen by a read: a canonical memory that starts after it reads otherwise there. -/
theorem Memory.read_head_ne {size low y : Nat} {v : Byte} {rest m : Memory}
    (hcons : Memory.wfFrom size low ((y, v) :: rest) = true)
    (hm : Memory.wfFrom size (y + 1) m = true) :
    Memory.read ((y, v) :: rest) y ≠ Memory.read m y := by
  obtain ⟨-, -, hv, -⟩ := (Memory.wfFrom_cons size low y v rest).mp hcons
  rwa [Memory.read_below hm (Nat.lt_succ_self y), Memory.read_cons, if_pos rfl]

theorem Memory.eq_of_read_eq {size low low' : Nat} {m m' : Memory}
    (hm : Memory.wfFrom size low m = true) (hm' : Memory.wfFrom size low' m' = true)
    (hread : ∀ x, x < size → Memory.read m x = Memory.read m' x) : m = m' := by
  induction m generalizing m' low low' with
  | nil =>
    cases m' with
    | nil => rfl
    | cons cell' rest' =>
      obtain ⟨y', v'⟩ := cell'
      obtain ⟨-, hsize', -, -⟩ := (Memory.wfFrom_cons size low' y' v' rest').mp hm'
      exact absurd (hread y' hsize').symm (Memory.read_head_ne hm' rfl)
  | cons cell rest ih =>
    obtain ⟨y, v⟩ := cell
    obtain ⟨-, hsize, hv, hrest⟩ := (Memory.wfFrom_cons size low y v rest).mp hm
    cases m' with
    | nil => exact absurd (hread y hsize) (Memory.read_head_ne hm rfl)
    | cons cell' rest' =>
      obtain ⟨y', v'⟩ := cell'
      obtain ⟨-, hsize', hv', hrest'⟩ := (Memory.wfFrom_cons size low' y' v' rest').mp hm'
      obtain hlt | rfl | hgt := Nat.lt_trichotomy y y'
      · have hlater : Memory.wfFrom size (y + 1) ((y', v') :: rest') = true :=
          (Memory.wfFrom_cons size (y + 1) y' v' rest').mpr ⟨hlt, hsize', hv', hrest'⟩
        exact absurd (hread y hsize) (Memory.read_head_ne hm hlater)
      · have htails : rest = rest' := ih hrest hrest' fun x hx => by
          rw [Memory.read_tail hm, Memory.read_tail hm', hread x hx]
        have hheads : v = v' := by simpa [Memory.read_cons] using hread y hsize
        rw [htails, hheads]
      · have hlater : Memory.wfFrom size (y' + 1) ((y, v) :: rest) = true :=
          (Memory.wfFrom_cons size (y' + 1) y v rest).mpr ⟨hgt, hsize, hv, hrest⟩
        exact absurd (hread y' hsize').symm (Memory.read_head_ne hm' hlater)

/-! ### Register pairs as numbers (R43) -/

theorem concat_toNat (h l : Byte) : (concat h l).toNat = 256 * h.toNat + l.toNat := by
  rw [concat, BitVec.toNat_append, Nat.shiftLeft_eq, Nat.mul_comm, ← Nat.two_pow_add_eq_or_of_lt l.isLt]

theorem writePair_eq_assignPair (s : State) (rp : Pair) (v : Word) :
    writePair s rp v = assignPair s rp v.toNat := by
  cases rp with
  | b | d | h => simp only [writePair, assignPair, hiByte_eq, loByte_eq, highOf, lowOf]
  | sp => simp only [writePair, assignPair, BitVec.ofNat_toNat, BitVec.setWidth_eq]

end Sys2Proof.Machine

open Sys2Proof Sys2Proof.Machine

/-- Settles O21: the two lists have the same first entry, and so on along both. -/
theorem canonicalMemoriesAreEqualWhenTheyReadAlike :
    Obligations.CanonicalMemoriesAreEqualWhenTheyReadAlike :=
  fun _ _ _ hm hm' hread => Memory.eq_of_read_eq hm hm' hread

/-- Settles O19: the pairs are concatenations, and a 16-bit value is written by its two bytes. -/
theorem registerPairsAreHighThenLow : Obligations.RegisterPairsAreHighThenLow := fun s =>
  ⟨concat_toNat s.b s.c, concat_toNat s.d s.e, concat_toNat s.h s.l, writePair_eq_assignPair s⟩

/-- Settles O22: reset reads the configuration of the state before it and nothing else. -/
theorem resetGivesTheResetValues : Obligations.ResetGivesTheResetValues := by
  refine ⟨rfl, fun _ => rfl, fun s s' hcfg => ?_, fun s => ?_⟩
  · rw [hostReset, hcfg, hostReset]
  · exact ⟨rfl, rfl, rfl, rfl, rfl, rfl, rfl, rfl, rfl, rfl, rfl, rfl, fun _ => rfl, fun _ => rfl⟩

end

section
/-! SUPPORT. The proof of the statement on reads and writes of memory and ports (20_memory.md R81; 10_state.md R53, R54). -/

open Sys2Proof Sys2Proof.Machine

/-- Settles O20: the read-after-write law of byte arrays, of memory and of the ports; either write is an update of its array alone. -/
theorem readsReturnTheLastWrite : Obligations.ReadsReturnTheLastWrite := fun s x p v =>
  ⟨⟨fun y => memRead_memWrite s x y v, rfl⟩, fun q => portRead_portWrite s p q v, rfl⟩

end

section
/-! SUPPORT. The round trip of the decoder and the encoder, the raises that are not `UnknownOpcode`, and the proofs of the four statements on the encoding (30_encoding.md R102, R112 to R115; 60_exceptions.md R310, R311). -/

namespace Sys2Proof.Machine

/-! ### What the decoder reads at an opcode byte -/

theorem patternOf_undefined {op : Byte} (h : op ∈ undefinedBytes) :
    patternOf op = .i1 (.undefined op) := by
  simp only [undefinedBytes, List.mem_cons, List.not_mem_nil, or_false] at h
  obtain rfl | rfl | rfl | rfl | rfl | rfl | rfl | rfl | rfl | rfl := h <;> rfl

set_option maxRecDepth 20000 in
/-- The decoder names well-formed instructions only: MOV M,M is not in the map, and `undefined` is read at the ten bytes alone (R111, R112). -/
theorem wf_instrOf (op b1 b2 : Byte) : (instrOf op b1 b2).wf = true :=
  (of_decide_eq_true rfl : ∀ op : Byte, (instrOf op b1 b2).wf = true) op

theorem mem_undefinedBytes_of_instrOf {op b1 b2 u : Byte} (h : instrOf op b1 b2 = .undefined u) :
    op ∈ undefinedBytes := by
  have hwf := wf_instrOf op b1 b2
  have hop := opcodeByte_instrOf op b1 b2
  rw [h] at hwf hop
  exact hop ▸ List.contains_iff_mem.mp hwf

/-- The instructions of a pattern have the operand bytes that the decoder reads for it (R101). -/
def OperandsFit : Pattern → Prop
  | .i1 i => operandBytes i = []
  | .i2 f => ∀ d8, operandBytes (f d8) = [d8]
  | .i3 f => ∀ d16, operandBytes (f d16) = [hiByte d16, loByte d16]

theorem patternOf_operandsFit (op : Byte) : OperandsFit (patternOf op) := by
  refine patternOf_forall (fun _ => rfl) ?_ op
  simp only [opcodeMap, opcodeRow0, opcodeRow1, opcodeRow2, opcodeRow3, opcodeRow4, opcodeRow5,
    opcodeRow6, opcodeRow7, opcodeRow8, opcodeRow9, opcodeRowA, opcodeRowB, opcodeRowC, opcodeRowD,
    opcodeRowE, opcodeRowF, sourceCells, List.cons_append, List.nil_append, List.forall_mem_cons,
    Option.some.injEq, forall_eq']
  simp [OperandsFit, operandBytes]

/-- Everything the decoder can answer at an opcode byte: an instruction of that byte, with its operand bytes taken off the list. -/
theorem decode_eq_ok_iff {op : Byte} {tail rest : List Byte} {i : Instr} :
    decode (op :: tail) = .ok (i, rest) ↔
      (∃ b1 b2, instrOf op b1 b2 = i) ∧ operandBytes i ++ rest = tail := by
  have hfit := patternOf_operandsFit op
  simp only [decode, instrOf]
  cases hp : patternOf op with
  | i1 j =>
    rw [hp] at hfit
    have hnone : operandBytes j = [] := hfit
    constructor
    · rintro ⟨⟩
      exact ⟨⟨0, 0, rfl⟩, by simp [hnone]⟩
    · rintro ⟨⟨_, _, rfl⟩, rfl⟩
      simp [hnone]
  | i2 f =>
    rw [hp] at hfit
    constructor
    · intro h
      match tail, h with
      | b1 :: _, rfl => exact ⟨⟨b1, 0, rfl⟩, by simp [hfit b1]⟩
    · rintro ⟨⟨b1, _, rfl⟩, rfl⟩
      simp [hfit b1]
  | i3 f =>
    rw [hp] at hfit
    constructor
    · intro h
      match tail, h with
      | b1 :: b2 :: _, rfl => exact ⟨⟨b1, b2, rfl⟩, by simp [hfit (concat b1 b2)]⟩
    · rintro ⟨⟨b1, b2, rfl⟩, rfl⟩
      simp [hfit (concat b1 b2)]

/-! ### Every instruction is in the map -/

/-- The map has this instruction at its opcode byte, with some operand bytes. -/
abbrev InMap (i : Instr) : Prop := ∃ b1 b2, instrOf (opcodeByte i) b1 b2 = i

theorem inMap_of_instrOf {i : Instr} {op b1 b2 : Byte} (h : instrOf op b1 b2 = i) : InMap i := by
  subst h
  exact ⟨b1, b2, by rw [opcodeByte_instrOf]⟩

theorem inMap_i1 {i : Instr} (hp : patternOf (opcodeByte i) = .i1 i) : InMap i :=
  ⟨0, 0, by rw [instrOf, hp]⟩

/-- One operand is enough to find the pattern: the opcode byte does not depend on it. -/
theorem inMap_i2 {f : Byte → Instr} (hp : patternOf (opcodeByte (f 0)) = .i2 f) (d8 : Byte) :
    InMap (f d8) :=
  inMap_of_instrOf (op := opcodeByte (f 0)) (b1 := d8) (b2 := 0) (by rw [instrOf, hp])

theorem inMap_i3 {f : Word → Instr} (hp : patternOf (opcodeByte (f 0)) = .i3 f) (d16 : Word) :
    InMap (f d16) :=
  inMap_of_instrOf (op := opcodeByte (f 0)) (b1 := hiByte d16) (b2 := loByte d16)
    (by rw [instrOf, hp, concat_hiByte_loByte])

/-- The eight bytes of RST (R107). -/
theorem inMap_rst (n : BitVec 3) : InMap (.rst n) :=
  ⟨0, 0, (by decide : ∀ n : BitVec 3, instrOf (opcodeByte (.rst n)) 0 0 = .rst n) n⟩

/-- The case split over the instructions for the round trip: the map has each well-formed one where the field layouts of the encoder put it (R115). -/
theorem inMap_of_wf {i : Instr} (hwf : i.wf = true) : InMap i := by
  cases i with
  | nop | rlc | rrc | ral | rar | rim | daa | cma | sim | stc | cmc | hlt | pchl | ret | rnz | rz
  | rnc | rc | rpo | rpe | rp | rm | xchg | sphl | xthl | ei | di => exact inMap_i1 rfl
  | inx rp | dad rp | dcx rp | stax rp | ldax rp | push rp | pop rp =>
    cases rp <;> exact inMap_i1 rfl
  | inr r | dcr r | add r | adc r | sub r | sbb r | ana r | xra r | ora r | cmp r =>
    cases r <;> exact inMap_i1 rfl
  | mov dst src =>
    cases dst with
    | b | c | d | e | h | l | a => cases src <;> exact inMap_i1 rfl
    | m =>
      cases src with
      | b | c | d | e | h | l | a => exact inMap_i1 rfl
      | m => cases hwf
  | rst n => exact inMap_rst n
  | undefined op => exact inMap_i1 (patternOf_undefined (List.contains_iff_mem.mp hwf))
  | mvi r d8 => cases r <;> exact inMap_i2 rfl d8
  | adi d8 | aci d8 | sui d8 | sbi d8 | ani d8 | xri d8 | ori d8 | cpi d8 | inp d8 | out d8 =>
    exact inMap_i2 rfl d8
  | lxi rp d16 => cases rp <;> exact inMap_i3 rfl d16
  | shld x | lhld x | sta x | lda x | jmp x | jnz x | jz x | jnc x | jc x | jpo x | jpe x | jp x
  | jm x | call x | cnz x | cz x | cnc x | cc x | cpo x | cpe x | cp x | cm x =>
    exact inMap_i3 rfl x

/-! ### The round trip (R115) -/

theorem decode_encode {i : Instr} (hwf : i.wf = true) (rest : List Byte) :
    decode (encode i ++ rest) = .ok (i, rest) :=
  decode_eq_ok_iff.mpr ⟨inMap_of_wf hwf, rfl⟩

theorem encode_of_decode {bytes rest : List Byte} {i : Instr} (h : decode bytes = .ok (i, rest)) :
    i.wf = true ∧ encode i ++ rest = bytes := by
  cases bytes with
  | nil => cases h
  | cons op tail =>
    obtain ⟨⟨b1, b2, rfl⟩, htail⟩ := decode_eq_ok_iff.mp h
    refine ⟨wf_instrOf op b1 b2, ?_⟩
    rw [encode, List.cons_append, htail, opcodeByte_instrOf]

/-- The fetch reads what the decoder names at the opcode byte, with some operand bytes. -/
theorem fetch_eq_ok {s : State} {i : Instr} (h : fetch s = .ok i) :
    ∃ b1 b2, instrOf (memRead s s.pc) b1 b2 = i := by
  unfold instrOf
  cases hp : patternOf (memRead s s.pc) with
  | i1 j => exact ⟨0, 0, by simpa [fetch_i1 hp] using h⟩
  | i2 f =>
    obtain ⟨b1, -, hi⟩ := bind_eq_ok ((fetch_i2 hp).symm.trans h)
    exact ⟨b1, 0, by simpa using hi⟩
  | i3 f =>
    obtain ⟨b1, -, hrest⟩ := bind_eq_ok ((fetch_i3 hp).symm.trans h)
    obtain ⟨b2, -, hi⟩ := bind_eq_ok hrest
    exact ⟨b1, b2, by simpa using hi⟩

/-! ### The raises other than `UnknownOpcode` -/

/-- A computation gives a value with `Q`, or another raise than `UnknownOpcode`. -/
abbrev Known {α : Type} (Q : α → Prop) : Except Raise α → Prop := Meets Q (· ≠ .unknownOpcode)

/-- The body of an instruction in `s` keeps the fault latch, or meets another raise than `UnknownOpcode`. -/
abbrev KnownBody (s : State) : Except Raise State → Prop := Known (fun t => t.fault = s.fault)

theorem a16_known (cfg : Config) (x : Int) : Known (fun _ => True) (a16 cfg x) := by
  obtain h | ⟨-, -, h⟩ := a16_cases cfg x <;> rw [h]
  · trivial
  · nofun

theorem v16_known (cfg : Config) (r : WideReg) (x : Int) : Known (fun _ => True) (v16 cfg r x) := by
  obtain h | ⟨-, -, h⟩ := v16_cases cfg r x <;> rw [h]
  · trivial
  · nofun

theorem fetch8_known (s : State) (k : Nat) : Known (fun _ => True) (fetch8 s k) :=
  (a16_known s.cfg _).bind fun _ _ => trivial

/-- A fetch never raises `UnknownOpcode`: an undefined byte is fetched as an instruction (R311). -/
theorem fetch_known (s : State) : Known (fun _ => True) (fetch s) := by
  unfold fetch
  split
  · trivial
  · exact (fetch8_known s 1).bind fun _ _ => trivial
  · exact (fetch8_known s 1).bind fun _ _ => (fetch8_known s 2).bind fun _ _ => trivial

section
variable {s : State}

theorem read16_known (x : Int) : Known (fun _ => True) (read16 s x) :=
  (a16_known s.cfg x).bind fun _ _ => (a16_known s.cfg _).bind fun _ _ => trivial

theorem write16_known (x : Int) (v : Word) : KnownBody s (write16 s x v) :=
  (a16_known s.cfg x).bind fun _ _ => (a16_known s.cfg _).bind fun _ _ => rfl

theorem push16_known (v : Word) : KnownBody s (push16 s v) :=
  (write16_known _ v).bind fun _ ht => (v16_known s.cfg .sp _).bind fun _ _ => ht

theorem pop16_known : Known (fun p => p.2.fault = s.fault) (pop16 s) :=
  (read16_known _).bind fun _ _ => (v16_known s.cfg .sp _).bind fun _ _ => rfl

theorem advance_known {t : State} (n : Nat) (h : t.fault = s.fault) : KnownBody s (advance n t) :=
  (v16_known t.cfg .pc _).bind fun _ _ => h

theorem stepPair_known (rp : Pair) (delta : Int) : KnownBody s (stepPair s rp delta) := by
  cases rp with
  | b | d | h => exact rfl
  | sp => exact (v16_known s.cfg .sp _).bind fun _ _ => rfl

theorem jumpIf_known (cc : Cond) (x : Word) : KnownBody s (jumpIf s cc x) := by
  unfold jumpIf
  split
  · exact rfl
  · exact advance_known 3 rfl

theorem callTo_known (n : Nat) (x : Word) : KnownBody s (callTo s n x) :=
  (v16_known s.cfg .pc _).bind fun _ _ => (push16_known _).bind fun _ ht => ht

theorem callIf_known (cc : Cond) (x : Word) : KnownBody s (callIf s cc x) := by
  unfold callIf
  split
  · exact callTo_known 3 x
  · exact advance_known 3 rfl

theorem returnFrom_known : KnownBody s (returnFrom s) := pop16_known.bind fun _ ht => ht

theorem returnIf_known (cc : Cond) : KnownBody s (returnIf s cc) := by
  unfold returnIf
  split
  · exact returnFrom_known
  · exact advance_known 1 rfl

theorem restart_known (n : BitVec 3) : KnownBody s (restart s n) := by
  unfold restart
  split
  · exact callTo_known 1 _
  · exact rfl

end

/-! ### The instructions that do not raise `UnknownOpcode` -/

/-- No next state of the result latches `UnknownOpcode`. -/
def LatchesNoUnknown (r : Result) : Prop :=
  ∀ t record, r = .next t → t.fault = some record → record.kind ≠ .unknownOpcode

theorem takeFault_latchesNoUnknown {s : State} {op : Byte} {f : Raise} (hf : f ≠ .unknownOpcode) :
    LatchesNoUnknown (.next (takeFault s op f)) := by
  intro t record ht hrecord
  cases ht
  cases hrecord
  cases f with
  | unknownOpcode => exact absurd rfl hf
  | notImplemented | addressOutOfBounds | registerOutOfRange => nofun

section
variable {i : Instr} {s : State} {body : Except Raise State}

theorem transfer_latchesNoUnknown (hrunning : s.fault = none) (h : KnownBody s body) :
    LatchesNoUnknown (transfer i s body) := by
  cases body with
  | ok t =>
    intro u record hu hrecord
    cases hu
    cases (h.trans hrunning).symm.trans hrecord
  | error f => exact takeFault_latchesNoUnknown h

theorem sequential_latchesNoUnknown (hrunning : s.fault = none) (h : KnownBody s body) :
    LatchesNoUnknown (sequential i s body) :=
  transfer_latchesNoUnknown (i := i) hrunning (h.bind fun _ ht => advance_known _ ht)

end

/-- The case split over the instructions for the raises: only an undefined byte raises `UnknownOpcode` (R311). -/
theorem exec_latchesNoUnknown {i : Instr} {s : State} (hrunning : s.fault = none)
    (hdefined : ∀ op, i ≠ .undefined op) : LatchesNoUnknown (exec i s) := by
  cases i with
  | undefined op => exact absurd rfl (hdefined op)
  | nop | rlc | rrc | ral | rar | cma | stc | cmc | hlt | xchg | sphl | stax | dad | ldax | sta | lda
  | add | adc | sub | sbb | ana | xra | ora | cmp | adi | aci | sui | sbi | ani | xri | ori | cpi =>
    exact sequential_latchesNoUnknown (body := .ok _) hrunning rfl
  | lxi rp d16 =>
    exact sequential_latchesNoUnknown (body := .ok _) hrunning (writePair_fault s rp d16)
  | mvi r d8 =>
    exact sequential_latchesNoUnknown (body := .ok _) hrunning (writeOperand_fault s r d8)
  | mov dst src =>
    exact sequential_latchesNoUnknown (body := .ok _) hrunning (writeOperand_fault s dst _)
  | inr r | dcr r =>
    exact sequential_latchesNoUnknown (body := .ok _) hrunning (writeOperand_fault s r _)
  | inx rp | dcx rp => exact sequential_latchesNoUnknown hrunning (stepPair_known rp _)
  | shld x => exact sequential_latchesNoUnknown hrunning (write16_known _ _)
  | lhld x => exact sequential_latchesNoUnknown hrunning ((read16_known _).bind fun _ _ => rfl)
  | xthl =>
    exact sequential_latchesNoUnknown hrunning
      ((read16_known _).bind fun _ _ => (write16_known _ _).bind fun _ ht => ht)
  | push rp => exact sequential_latchesNoUnknown hrunning (push16_known _)
  | pop rp =>
    exact sequential_latchesNoUnknown hrunning
      (pop16_known.bind fun p ht => (writeStackPair_fault p.2 rp p.1).trans ht)
  | daa =>
    refine sequential_latchesNoUnknown hrunning ?_
    cases s.cfg.daaMode with
    | fault => nofun
    | datasheet => exact rfl
  | inp d8 | out d8 =>
    refine sequential_latchesNoUnknown hrunning ?_
    cases s.cfg.ioMode with
    | fault => nofun
    | datasheet => exact rfl
  | rim | sim | ei | di => exact takeFault_latchesNoUnknown nofun
  | jmp x =>
    exact transfer_latchesNoUnknown (i := .jmp x) (body := .ok { s with pc := x }) hrunning rfl
  | pchl =>
    exact transfer_latchesNoUnknown (i := .pchl) (body := .ok { s with pc := regHL s }) hrunning rfl
  | jnz x | jz x | jnc x | jc x | jpo x | jpe x | jp x | jm x =>
    exact transfer_latchesNoUnknown hrunning (jumpIf_known _ x)
  | call x => exact transfer_latchesNoUnknown hrunning (callTo_known 3 x)
  | cnz x | cz x | cnc x | cc x | cpo x | cpe x | cp x | cm x =>
    exact transfer_latchesNoUnknown hrunning (callIf_known _ x)
  | ret => exact transfer_latchesNoUnknown hrunning returnFrom_known
  | rnz | rz | rnc | rc | rpo | rpe | rp | rm =>
    exact transfer_latchesNoUnknown hrunning (returnIf_known _)
  | rst n => exact transfer_latchesNoUnknown hrunning (restart_known n)

/-! ### The step at an undefined byte, and at any other -/

theorem step_undefined {s : State} (hrunning : s.fault = none)
    (hop : memRead s s.pc ∈ undefinedBytes) :
    step s = .next (latched s .unknownOpcode 1 (memRead s s.pc) .none) := by
  rw [step_running hrunning, fetch_i1 (patternOf_undefined hop)]
  rfl

theorem step_latchesNoUnknown {s : State} (hop : memRead s s.pc ∉ undefinedBytes) :
    LatchesNoUnknown (step s) := by
  intro t record hstep
  obtain ⟨hrunning, -⟩ := step_next hstep
  have hfetch := fetch_known s
  obtain ⟨f, hf, rfl⟩ | ⟨i, hi, hexec⟩ := step_next_cases hstep
  · rw [hf] at hfetch
    exact takeFault_latchesNoUnknown hfetch _ _ rfl
  · refine exec_latchesNoUnknown hrunning (fun u hundefined => ?_) t record hexec
    obtain ⟨b1, b2, hread⟩ := fetch_eq_ok hi
    exact hop (mem_undefinedBytes_of_instrOf (hread.trans hundefined))

/-! ### Every instruction ends in a commit -/

theorem exec_answers (i : Instr) (s : State) : ∃ t, exec i s = .next t := by
  obtain ⟨body, hexec, -⟩ := exec_commits i s
  rw [hexec]
  exact commit_answers (opcodeByte i) s body

end Sys2Proof.Machine

open Sys2Proof Sys2Proof.Machine

/-- Settles O1: the map has each instruction's pattern at its opcode byte, and each pattern's instruction has the opcode byte and the operand bytes that were read. -/
theorem decodeAndEncodeAgree : Obligations.DecodeAndEncodeAgree := by
  refine ⟨fun i rest hwf => decode_encode hwf rest, fun _ _ _ => encode_of_decode, ?_⟩
  intro op op' b1 b2 hsame
  rw [← opcodeByte_instrOf op b1 b2, hsame, opcodeByte_instrOf]

/-- Settles O2: the decoder's `undefined` is well-formed and has the byte it was read from, and no other instruction raises `UnknownOpcode`. -/
theorem undefinedBytesTakeUnknownOpcode : Obligations.UndefinedBytesTakeUnknownOpcode := by
  refine ⟨fun op b1 b2 hop => ?_, fun op b1 b2 u hop hu => ?_, fun _ _ _ => rfl,
    fun s => step_undefined, fun s t record hstep hrecord hkind => ?_⟩
  · rw [instrOf, patternOf_undefined hop]
  · exact hop (mem_undefinedBytes_of_instrOf hu)
  · exact Classical.byContradiction fun hop => step_latchesNoUnknown hop t record hstep hrecord hkind

/-- Settles O9: every instruction ends in a commit, and so does the step, or in the fault of the fetch. -/
theorem everyInstructionAnswersANextState : Obligations.EveryInstructionAnswersANextState := by
  refine ⟨exec_answers, fun s hrunning => ?_⟩
  rw [step_running hrunning]
  cases fetch s with
  | ok i => exact exec_answers i s
  | error f => exact ⟨_, rfl⟩

set_option maxRecDepth 20000 in
/-- Settles O3: the lengths of the map's 256 cells, and the decoder's instruction has the length of its byte. -/
theorem lengthFollowsFromTheOpcode : Obligations.LengthFollowsFromTheOpcode := by
  refine ⟨by decide, fun i hwf => ?_⟩
  obtain ⟨b1, b2, hi⟩ := inMap_of_wf hwf
  calc (encode i).length = instrLength (instrOf (opcodeByte i) b1 b2) := by rw [hi]; rfl
    _ = lengthOf (opcodeByte i) := instrLength_instrOf _ b1 b2

end

section
/-! SUPPORT. What the data transfer and stack instructions leave in memory and in the pairs, their faults, and the proofs of the ten statements on them (40_data_transfer.md R140 to R159). -/

namespace Sys2Proof.Machine

/-! ### Encodings -/

/-- An instruction with a 16-bit operand is its opcode byte and the operand, high byte first (R101). -/
theorem encode_of_word {i : Instr} {v : Word} (h : operandBytes i = [hiByte v, loByte v]) :
    encode i = [opcodeByte i, highOf v, lowOf v] := by
  rw [encode, h, hiByte_eq, loByte_eq]

theorem opcodeByte_mov (dst src : Operand8) :
    opcodeByte (.mov dst src) = BitVec.ofNat 8 (0x40 + 8 * codeOf dst + codeOf src) := by
  cases dst <;> cases src <;> rfl

theorem opcodeByte_mvi (r : Operand8) (d8 : Byte) :
    opcodeByte (.mvi r d8) = BitVec.ofNat 8 (0x06 + 8 * codeOf r) := by
  cases r <;> rfl

theorem opcodeByte_lxi (rp : Pair) (d16 : Word) :
    opcodeByte (.lxi rp d16) = BitVec.ofNat 8 (0x01 + 16 * pairOf rp) := by
  cases rp <;> rfl

theorem opcodeByte_push (rp : StackPair) :
    opcodeByte (.push rp) = BitVec.ofNat 8 (0xC5 + 16 * stackPairOf rp) := by
  cases rp <;> rfl

theorem opcodeByte_pop (rp : StackPair) :
    opcodeByte (.pop rp) = BitVec.ofNat 8 (0xC1 + 16 * stackPairOf rp) := by
  cases rp <;> rfl

/-- The encoding of a well-formed instruction says where its operand fetch faults (R313). -/
theorem operandFetchFaults_of_encode {i : Instr} {op : Byte} {operands : List Byte}
    (hwf : i.wf = true) (h : encode i = op :: operands) :
    OperandFetchFaults op (operands.length + 1) := by
  obtain ⟨-, hlength⟩ := lengthFollowsFromTheOpcode
  have hlen : (operandBytes i).length + 1 = lengthOf (opcodeByte i) := hlength i hwf
  cases h
  exact hlen ▸ operandFetchPastTheTopFaults (opcodeByte i)

/-! ### Pairs as two bytes -/

theorem readStackPair_eq (s : State) (rp : StackPair) :
    readStackPair s rp = concat (stackPairValue s rp).1 (stackPairValue s rp).2 := by
  cases rp <;> rfl

/-- The stack pair of a state whose SP has moved is written as before (R44). -/
theorem writeStackPair_concat (s : State) (rp : StackPair) (v : Byte × Byte) (x : Word) :
    writeStackPair { s with sp := x } rp (concat v.1 v.2)
      = { assignStackPair s rp v with sp := x } := by
  cases rp <;> simp only [writeStackPair, assignStackPair, hiByte_concat, loByte_concat]

theorem writePair_h_concat (s : State) (hi lo : Byte) :
    writePair s .h (concat hi lo) = { s with h := hi, l := lo } := by
  simp only [writePair, hiByte_concat, loByte_concat]

theorem concat_eq_ofNat (hi lo : Byte) :
    concat hi lo = BitVec.ofNat 16 (256 * hi.toNat + lo.toNat) := by
  rw [← concat_toNat, BitVec.ofNat_toNat, BitVec.setWidth_eq]

/-! ### Data words in range and at 0xFFFF (R14) -/

theorem read16_wordAt {s : State} {x : Word} (h : WordFits s x) :
    read16 s x.toNat = .ok (concat (wordAt s x).1 (wordAt s x).2) := by
  rw [read16_ok h, joinWord_eq]

theorem pop16_wordAt {s : State} (h : CanPop s) :
    pop16 s = .ok (concat (wordAt s s.sp).1 (wordAt s s.sp).2, { s with sp := s.sp + 2 }) := by
  rw [pop16_ok h, joinWord_eq]

/-- A sequence whose first part raises is that raise. -/
theorem bind_of_error {α β : Type} {x : Except Raise α} {f : α → Except Raise β} {r : Raise}
    (hx : x = .error r) : (x >>= f) = .error r := by
  rw [hx, bind_error]

/-- The address of a word's first byte is always in range. -/
theorem a16_toNat (cfg : Config) (x : Word) : a16 cfg x.toNat = .ok x := by
  rw [a16_ok (.inr (by omega)), ofInt_toNat]

/-- The second byte of a word at 0xFFFF has no address (R313). -/
theorem a16_second_raises {cfg : Config} (hw : cfg.wrap16 = .fault) :
    a16 cfg ((0xFFFF#16).toNat + 1) = .error (.addressOutOfBounds 0x10000) :=
  a16_raises hw (by decide)

theorem read16_raises {s : State} (hw : s.cfg.wrap16 = .fault) :
    read16 s (0xFFFF#16).toNat = .error (.addressOutOfBounds 0x10000) :=
  bind_of_ok (a16_toNat s.cfg _) (bind_of_error (a16_second_raises hw))

theorem write16_raises {s : State} (v : Word) (hw : s.cfg.wrap16 = .fault) :
    write16 s (0xFFFF#16).toNat v = .error (.addressOutOfBounds 0x10000) :=
  bind_of_ok (a16_toNat s.cfg _) (bind_of_error (a16_second_raises hw))

/-! ### Instructions that store -/

/-- The word a push leaves in memory (R15). -/
theorem Pushed.storesWord {s t : State} {hi lo : Byte} (h : Pushed s t (concat hi lo)) :
    StoresWord s t (s.sp - 2) hi lo := by
  have hnext : s.sp - 2 + 1 = s.sp - 1 := by bv_omega
  exact storesWord_of_mem (hnext ▸ h.mem)

section
variable {i : Instr} {s : State}

/-- An instruction that stores one byte and advances PC. -/
theorem sequential_storesByte (x : Word) (v : Byte) (hadv : CanAdvance s (instrLength i)) :
    ∃ t, sequential i s (.ok (memWrite s x v)) = .next t
      ∧ t = { s with mem := t.mem, pc := s.pc + BitVec.ofNat 16 (instrLength i) }
      ∧ StoresByte s t x v :=
  ⟨_, sequential_ok rfl rfl rfl hadv, rfl, storesByte_of_mem rfl⟩

/-- An instruction that writes an operand and advances PC: a register, or the byte at HL (R103). -/
theorem sequential_writeOperand (r : Operand8) (v : Byte) (hadv : CanAdvance s (instrLength i)) :
    (r ≠ .m → sequential i s (.ok (writeOperand s r v))
        = .next { assignReg s r v with pc := s.pc + BitVec.ofNat 16 (instrLength i) })
      ∧ (r = .m → ∃ t, sequential i s (.ok (writeOperand s r v)) = .next t
        ∧ t = { s with mem := t.mem, pc := s.pc + BitVec.ofNat 16 (instrLength i) }
        ∧ StoresByte s t (regHL s) v) := by
  refine ⟨fun hreg => ?_, fun hm => ?_⟩
  · rw [writeOperand_reg s v hreg]
    exact sequential_ok rfl rfl rfl hadv
  · subst hm
    exact sequential_storesByte (regHL s) v hadv

end

end Sys2Proof.Machine

open Sys2Proof Sys2Proof.Machine

/-- Settles O31: the operand written is the destination, with the source as it was before. -/
theorem movCopiesOneByte : Obligations.MovCopiesOneByte := fun dst src s _ =>
  ⟨congrArg (fun op => [op]) (opcodeByte_mov dst src),
    sequential_writeOperand (i := .mov dst src) dst (readOperand s src)⟩

/-- Settles O32: the operand written holds the immediate. -/
theorem mviPutsItsImmediate : Obligations.MviPutsItsImmediate := by
  intro r d8 s
  have hencode : encode (.mvi r d8) = [BitVec.ofNat 8 (0x06 + 8 * codeOf r), d8] :=
    congrArg (fun op => [op, d8]) (opcodeByte_mvi r d8)
  exact ⟨hencode, operandFetchFaults_of_encode rfl hencode,
    sequential_writeOperand (i := .mvi r d8) r d8⟩

/-- Settles O33: the pair written holds the immediate as a number. -/
theorem lxiPutsItsImmediate : Obligations.LxiPutsItsImmediate := by
  intro rp d16 s
  have hencode : encode (.lxi rp d16)
      = [BitVec.ofNat 8 (0x01 + 16 * pairOf rp), highOf d16, lowOf d16] :=
    opcodeByte_lxi rp d16 ▸ encode_of_word rfl
  refine ⟨hencode, operandFetchFaults_of_encode rfl hencode, fun hadv => ?_⟩
  rw [← writePair_eq_assignPair]
  exact sequential_ok rfl (writePair_cfg s rp d16) (writePair_pc s rp d16) hadv

/-- Settles O34: each body writes A alone. -/
theorem ldaAndLdaxLoadA : Obligations.LdaAndLdaxLoadA := by
  intro x s
  have hencode : encode (.lda x) = [0x3A#8, highOf x, lowOf x] := encode_of_word rfl
  exact ⟨hencode, operandFetchFaults_of_encode rfl hencode, fun hadv => sequential_ok rfl rfl rfl hadv,
    rfl, rfl, fun hadv => ⟨sequential_ok rfl rfl rfl hadv, sequential_ok rfl rfl rfl hadv⟩⟩

/-- Settles O35: each body stores one byte, at the immediate, at BC or at DE. -/
theorem staAndStaxStoreA : Obligations.StaAndStaxStoreA := by
  intro x s
  have hencode : encode (.sta x) = [0x32#8, highOf x, lowOf x] := encode_of_word rfl
  exact ⟨hencode, operandFetchFaults_of_encode rfl hencode,
    sequential_storesByte (i := .sta x) x s.a, rfl, rfl,
    fun hadv => ⟨sequential_storesByte (i := .stax .b) (regBC s) s.a hadv,
      sequential_storesByte (i := .stax .d) (regDE s) s.a hadv⟩⟩

/-- Settles O36: the word is read or written whole, or its second byte has no address. -/
theorem lhldAndShldMoveAWord : Obligations.LhldAndShldMoveAWord := by
  intro x s
  have hlhld : encode (.lhld x) = [0x2A#8, highOf x, lowOf x] := encode_of_word rfl
  have hshld : encode (.shld x) = [0x22#8, highOf x, lowOf x] := encode_of_word rfl
  refine ⟨hlhld, operandFetchFaults_of_encode rfl hlhld, hshld,
    operandFetchFaults_of_encode rfl hshld, fun hadv hfit => ⟨?_, ?_⟩, fun hw htop => ?_⟩
  · have hexec : exec (.lhld x) s = .next _ := sequential_ok (bind_of_ok (read16_wordAt hfit) rfl)
      (writePair_cfg s .h _) (writePair_pc s .h _) hadv
    rw [writePair_h_concat] at hexec
    exact hexec
  · exact ⟨_, sequential_ok (write16_ok _ hfit) rfl rfl hadv, rfl, storesWord_of_mem rfl⟩
  · subst htop
    exact ⟨sequential_raises (bind_of_error (read16_raises hw)),
      sequential_raises (write16_raises _ hw)⟩

/-- Settles O37: each body writes registers alone; HL as a number is 256 H + L. -/
theorem xchgAndSphl : Obligations.XchgAndSphl := by
  refine fun s => ⟨rfl, rfl, fun hadv => ⟨sequential_ok rfl rfl rfl hadv, ?_⟩⟩
  rw [← concat_eq_ofNat]
  exact sequential_ok rfl rfl rfl hadv

/-- Settles O38: the word is read before HL is stored in its place, and the read faults first. -/
theorem xthlExchangesTheTopOfTheStack : Obligations.XthlExchangesTheTopOfTheStack := by
  refine fun s => ⟨rfl, fun hadv hfit => ?_, fun hw htop => ?_⟩
  · have hexec : exec .xthl s = .next _ := sequential_ok
      (bind_of_ok (read16_wordAt hfit) (bind_of_ok (write16_ok (regHL s) hfit) rfl))
      (writePair_cfg _ .h _) (writePair_pc _ .h _) hadv
    rw [writePair_h_concat] at hexec
    exact ⟨_, hexec, rfl, storesWord_of_mem rfl⟩
  · have hread : read16 s s.sp.toNat = .error (.addressOutOfBounds 0x10000) :=
      htop ▸ read16_raises hw
    exact sequential_raises (bind_of_error hread)

/-- Settles O39: the push stores the pair's two bytes, or faults before the PC advance can. -/
theorem pushStoresAPair : Obligations.PushStoresAPair := by
  intro rp s
  rw [← opcodeByte_push]
  refine ⟨rfl, fun hroom hadv => ?_, fun hw hlow => ?_, fun hw hroom hpc => ?_⟩
  · obtain ⟨t, hexec⟩ := exec_answers (.push rp) s
    obtain ⟨hpushed, hframe⟩ := exec_push hroom hadv hexec
    rw [readStackPair_eq] at hpushed
    exact ⟨t, hexec, hframe, hpushed.storesWord⟩
  · exact sequential_raises (push16_raises _ hw hlow)
  · have hpast : 0xFFFF < s.pc.toNat + 1 := by omega
    exact sequential_pcFault hw hpast (push16_ok _ (.inr hroom)) rfl rfl

/-- Settles O40: the pop gives the word at SP, or faults at its second byte, or at the new SP. -/
theorem popLoadsAPair : Obligations.PopLoadsAPair := by
  intro rp s
  rw [← opcodeByte_pop]
  refine ⟨rfl, fun hpop hadv => ?_, fun hw htop => ?_, fun hw htop => ?_⟩
  · have hexec : exec (.pop rp) s = .next _ := sequential_ok (bind_of_ok (pop16_wordAt hpop) rfl)
      (writeStackPair_cfg _ rp _) (writeStackPair_pc _ rp _) hadv
    rw [writeStackPair_concat] at hexec
    exact hexec
  · exact sequential_raises (bind_of_error (pop16_raises_address hw htop))
  · exact sequential_raises (bind_of_error (pop16_raises_sp hw htop))

end

section
/-! SUPPORT. The arithmetic instructions as numbers, and the proofs of the seven statements on them (41_arithmetic.md R180 to R200). -/

namespace Sys2Proof.Machine

/-! ### Opcode bytes with an operand field -/

/-- The opcode byte of an arithmetic or logical instruction of A and an operand (R103, R110). -/
theorem aluByte_eq (op : BitVec 3) (r : Operand8) :
    aluByte op r = BitVec.ofNat 8 (0x80 + 8 * op.toNat + codeOf r) := by
  revert op
  cases r <;> decide

/-- An opcode byte with the operand code in bits 5 to 3 (R103). -/
theorem operandByte_eq (r : Operand8) (low : BitVec 3) :
    0b00#2 ++ operandCode r ++ low = BitVec.ofNat 8 (low.toNat + 8 * codeOf r) := by
  revert low
  cases r <;> decide

/-- An opcode byte with the pair code in bits 5 and 4 (R104). -/
theorem pairByte_eq (rp : Pair) (low : BitVec 4) :
    0b00#2 ++ pairCode rp ++ low = BitVec.ofNat 8 (low.toNat + 16 * pairOf rp) := by
  revert low
  cases rp <;> decide

/-- The encoding of an instruction of one byte. -/
theorem encode_of_opcodeByte {i : Instr} {op : Byte} (hop : opcodeByte i = op)
    (hnone : operandBytes i = []) : encode i = [op] := by
  rw [encode, hop, hnone]

/-! ### Sums and differences in A -/

/-- The result of `Sub8` as a number (R19). -/
theorem sub8_res_toNat (mode : AcSubMode) (x y : Byte) (c : Bool) :
    (sub8 mode x y c).res.toNat = differenceOf x y c.toNat := by
  rw [sub8_res, BitVec.toNat_ofNat, Nat.mod_eq_of_lt (differenceOf_lt x y c.toNat)]

section
variable {i : Instr} {s : State}

/-- An instruction that adds to A (R18, R180 to R185). -/
theorem sequential_add8 (y : Byte) (c : Bool) (hadv : CanAdvance s (instrLength i)) :
    sequential i s (.ok (setAccumulator s (add8 s.a y c))) = .next { s with
      a := BitVec.ofNat 8 (s.a.toNat + y.toNat + c.toNat)
      flag := resultByte s.flag ((s.a.toNat + y.toNat + c.toNat) % 256)
        (decide (15 < s.a.toNat % 16 + y.toNat % 16 + c.toNat))
        (decide (255 < s.a.toNat + y.toNat + c.toNat))
      pc := s.pc + BitVec.ofNat 16 (instrLength i) } := by
  rw [setAccumulator_eq, add8_res]
  exact sequential_ok rfl rfl rfl hadv

/-- An instruction that subtracts from A (R19, R186 to R191). -/
theorem sequential_sub8 (y : Byte) (c : Bool) (hadv : CanAdvance s (instrLength i)) :
    sequential i s (.ok (setAccumulator s (sub8 s.cfg.acSubMode s.a y c))) = .next { s with
      a := BitVec.ofNat 8 (differenceOf s.a y c.toNat)
      flag := resultByte s.flag (differenceOf s.a y c.toNat) (borrowAC s.cfg s.a y c.toNat)
        (decide (s.a.toNat < y.toNat + c.toNat))
      pc := s.pc + BitVec.ofNat 16 (instrLength i) } := by
  rw [setAccumulator_eq, sub8_res_toNat, sub8_res, sub8_ac, sub8_cy]
  exact sequential_ok rfl rfl rfl hadv

/-! ### An operand one more or one less -/

/-- The auxiliary carry of adding one (R18). -/
theorem add8_one_ac (x : Byte) : (add8 x 0x01#8 false).ac = decide (x.toNat % 16 = 15) := by
  have hiff : x.toNat % 16 + 1 > 15 ↔ x.toNat % 16 = 15 := by omega
  exact decide_eq_decide.mpr hiff

/-- One less is 255 more modulo 256 (R19). -/
theorem sub8_one_res (mode : AcSubMode) (x : Byte) :
    (sub8 mode x 0x01#8 false).res = BitVec.ofNat 8 (x.toNat + 255) := by
  have hmod : (x.toNat + 512 - 1 - 0) % 256 = (x.toNat + 255) % 256 := by omega
  apply BitVec.eq_of_toNat_eq
  rw [sub8_res_toNat, BitVec.toNat_ofNat]
  exact hmod

/-- Everything `stepOperand` does: the operand is written, then the flags but CY (R192 to R195). -/
theorem stepOperand_eq (r : Operand8) (x : AluOut) :
    stepOperand s r x = { writeOperand s r x.res with
      flag := resultByte s.flag x.res.toNat x.ac (s.flag.getLsbD 0) } := by
  rw [stepOperand, setFlagsKeepCY_eq, writeOperand_flag]

/-- INR and DCR, whose result is `n` modulo 256: of a register, or of the byte at HL (R192 to R195). -/
theorem sequential_stepOperand (r : Operand8) {x : AluOut} {n : Nat} {ac : Bool}
    (hres : x.res = BitVec.ofNat 8 n) (hac : x.ac = ac) (hadv : CanAdvance s (instrLength i)) :
    (r ≠ .m → sequential i s (.ok (stepOperand s r x))
        = .next { assignReg s r (BitVec.ofNat 8 n) with
          flag := resultByte s.flag (n % 256) ac (s.flag.getLsbD 0)
          pc := s.pc + BitVec.ofNat 16 (instrLength i) })
      ∧ (r = .m → ∃ t, sequential i s (.ok (stepOperand s r x)) = .next t
        ∧ t = { s with
          mem := t.mem
          flag := resultByte s.flag (n % 256) ac (s.flag.getLsbD 0)
          pc := s.pc + BitVec.ofNat 16 (instrLength i) }
        ∧ StoresByte s t (regHL s) (BitVec.ofNat 8 n)) := by
  rw [stepOperand_eq, hres, hac, BitVec.toNat_ofNat]
  refine ⟨fun hreg => ?_, fun hm => ?_⟩
  · rw [writeOperand_reg s _ hreg]
    exact sequential_ok rfl rfl rfl hadv
  · subst hm
    exact ⟨_, sequential_ok rfl rfl rfl hadv, rfl, storesByte_of_mem rfl⟩

/-! ### Pairs as numbers -/

theorem readPair_toNat (s : State) (rp : Pair) : (readPair s rp).toNat = pairValue s rp := by
  cases rp with
  | b => exact concat_toNat s.b s.c
  | d => exact concat_toNat s.d s.e
  | h => exact concat_toNat s.h s.l
  | sp => rfl

/-- Everything DAD's body does (R196). -/
theorem addToHL_readPair (s : State) (rp : Pair) :
    addToHL s (readPair s rp) = { assignPair s .h ((pairValue s .h + pairValue s rp) % 65536) with
      flag := carryByte s.flag (decide (0xFFFF < pairValue s .h + pairValue s rp)) } := by
  have hhl : (regHL s).toNat = pairValue s .h := readPair_toNat s .h
  rw [addToHL, writePair_eq_assignPair, withCY_eq, BitVec.toNat_add, hhl, readPair_toNat]

/-- INX and DCX that do not raise: a pair never does, and SP does only out of range (R197 to R200). -/
theorem stepPair_ok {rp : Pair} {delta : Int}
    (h : rp = .sp → s.cfg.wrap16 = .wrap ∨ (0 ≤ s.sp.toNat + delta ∧ s.sp.toNat + delta ≤ 0xFFFF)) :
    stepPair s rp delta = .ok (writePair s rp (readPair s rp + BitVec.ofInt 16 delta)) := by
  by_cases hrp : rp = .sp
  · subst hrp
    exact stepPair_sp (h rfl)
  · exact stepPair_pair s delta hrp

/-- The same instructions with the pair's new value as a number. -/
theorem sequential_stepPair {rp : Pair} {delta : Int} (hadv : CanAdvance s (instrLength i))
    (h : rp = .sp → s.cfg.wrap16 = .wrap ∨ (0 ≤ s.sp.toNat + delta ∧ s.sp.toNat + delta ≤ 0xFFFF)) :
    sequential i s (stepPair s rp delta) = .next
      { assignPair s rp ((pairValue s rp + (BitVec.ofInt 16 delta).toNat) % 65536) with
        pc := s.pc + BitVec.ofNat 16 (instrLength i) } := by
  rw [← readPair_toNat, ← BitVec.toNat_add, ← writePair_eq_assignPair]
  exact sequential_ok (stepPair_ok h) (writePair_cfg s rp _) (writePair_pc s rp _) hadv

end

end Sys2Proof.Machine

open Sys2Proof Sys2Proof.Machine

/-- Settles O42: all four add to A, with no carry in or with CY. -/
theorem additionsAdd : Obligations.AdditionsAdd := by
  intro r d8 s
  have hadi : encode (.adi d8) = [0xC6#8, d8] := rfl
  have haci : encode (.aci d8) = [0xCE#8, d8] := rfl
  refine ⟨encode_of_opcodeByte (aluByte_eq 0b000#3 r) rfl,
    encode_of_opcodeByte (aluByte_eq 0b001#3 r) rfl, hadi, operandFetchFaults_of_encode rfl hadi,
    haci, operandFetchFaults_of_encode rfl haci, fun hadv => ?_, fun hadv => ?_⟩
  · exact ⟨sequential_add8 (i := .add r) (readOperand s r) false hadv,
      sequential_add8 (i := .adc r) (readOperand s r) (flagCY s.flag) hadv⟩
  · exact ⟨sequential_add8 (i := .adi d8) d8 false hadv,
      sequential_add8 (i := .aci d8) d8 (flagCY s.flag) hadv⟩

/-- Settles O43: all four subtract from A, with no borrow in or with CY. -/
theorem subtractionsSubtract : Obligations.SubtractionsSubtract := by
  intro r d8 s
  have hsui : encode (.sui d8) = [0xD6#8, d8] := rfl
  have hsbi : encode (.sbi d8) = [0xDE#8, d8] := rfl
  refine ⟨encode_of_opcodeByte (aluByte_eq 0b010#3 r) rfl,
    encode_of_opcodeByte (aluByte_eq 0b011#3 r) rfl, hsui, operandFetchFaults_of_encode rfl hsui,
    hsbi, operandFetchFaults_of_encode rfl hsbi, fun hadv => ?_, fun hadv => ?_⟩
  · exact ⟨sequential_sub8 (i := .sub r) (readOperand s r) false hadv,
      sequential_sub8 (i := .sbb r) (readOperand s r) (flagCY s.flag) hadv⟩
  · exact ⟨sequential_sub8 (i := .sui d8) d8 false hadv,
      sequential_sub8 (i := .sbi d8) d8 (flagCY s.flag) hadv⟩

/-- Settles O44: the operand written is the sum with one, and AC is 1 when the low digit was 15. -/
theorem inrAddsOne : Obligations.InrAddsOne := fun r s =>
  ⟨encode_of_opcodeByte (operandByte_eq r 0b100#3) rfl,
    sequential_stepOperand (i := .inr r) r rfl (add8_one_ac (readOperand s r))⟩

/-- Settles O45: the operand written is the difference with one, which is the sum with 255. -/
theorem dcrSubtractsOne : Obligations.DcrSubtractsOne := fun r s =>
  ⟨encode_of_opcodeByte (operandByte_eq r 0b101#3) rfl,
    sequential_stepOperand (i := .dcr r) r (sub8_one_res s.cfg.acSubMode (readOperand s r))
      (sub8_ac s.cfg (readOperand s r) 0x01#8 false)⟩

/-- Settles O46: the body writes the sum of the two numbers to HL, and its carry to CY. -/
theorem dadAddsToHL : Obligations.DadAddsToHL := by
  refine fun rp s => ⟨encode_of_opcodeByte (pairByte_eq rp 0b1001#4) rfl, fun hadv => ?_⟩
  exact sequential_ok (congrArg Except.ok (addToHL_readPair s rp)) rfl rfl hadv

/-- Settles O47: only SP, and only at 0xFFFF, has no next value. -/
theorem inxAddsOneToAPair : Obligations.InxAddsOneToAPair := by
  refine fun rp s => ⟨encode_of_opcodeByte (pairByte_eq rp 0b0011#4) rfl,
    fun hadv hsp => ?_, fun hw htop => ?_⟩
  · exact sequential_stepPair (i := .inx rp) hadv fun hrp => (hsp hrp).imp id fun _ => by omega
  · have hbody : stepPair s .sp 1 = .error (.registerOutOfRange .sp 0x10000) := by
      rw [stepPair_raises hw (by omega), htop]
      rfl
    exact sequential_raises hbody

/-- Settles O48: only SP, and only at 0, has no value before it; one less is 65535 more modulo 65536. -/
theorem dcxSubtractsOneFromAPair : Obligations.DcxSubtractsOneFromAPair := by
  refine fun rp s => ⟨encode_of_opcodeByte (pairByte_eq rp 0b1011#4) rfl,
    fun hadv hsp => ?_, fun hw hzero => ?_⟩
  · exact sequential_stepPair (i := .dcx rp) hadv fun hrp => (hsp hrp).imp id fun _ => by omega
  · have hbody : stepPair s .sp (-1) = .error (.registerOutOfRange .sp (-1)) := by
      rw [stepPair_raises hw (by omega), hzero]
      rfl
    exact sequential_raises hbody

end

section
/-! SUPPORT. The rotates as arithmetic on A, compares, logic and the complement, and the proofs of the four statements on them (42_logical.md R220 to R238). -/

namespace Sys2Proof.Machine

/-! ### One bit shifted in, one shifted out -/

theorem bitByte_toNat (x : Bool) : (bitByte x).toNat = x.toNat := by
  cases x <;> rfl

/-- A byte shifted left with a bit entering at its low end. -/
theorem shiftLeft_or_bitByte (v : Byte) (x : Bool) :
    v <<< 1 ||| bitByte x = BitVec.ofNat 8 (2 * (v.toNat % 128) + x.toNat) := by
  have hx : x.toNat < 2 ^ 1 := x.toNat_lt
  have hshift : (v <<< 1).toNat = 2 ^ 1 * (v.toNat % 128) := by
    rw [BitVec.toNat_shiftLeft, Nat.shiftLeft_eq]
    omega
  apply BitVec.eq_of_toNat_eq
  rw [BitVec.toNat_or, hshift, bitByte_toNat, ← Nat.two_pow_add_eq_or_of_lt hx, BitVec.toNat_ofNat]
  omega

/-- A byte shifted right with a bit entering at its high end. -/
theorem shiftRight_or_bitByte (v : Byte) (x : Bool) :
    v >>> 1 ||| bitByte x <<< 7 = BitVec.ofNat 8 (v.toNat / 2 + 128 * x.toNat) := by
  have hx : x.toNat < 2 := x.toNat_lt
  have hv : v.toNat / 2 < 2 ^ 7 := by omega
  have hshift : (bitByte x <<< 7).toNat = 2 ^ 7 * x.toNat := by cases x <;> rfl
  apply BitVec.eq_of_toNat_eq
  rw [BitVec.toNat_or, hshift, BitVec.toNat_ushiftRight, Nat.shiftRight_eq_div_pow, Nat.or_comm,
    ← Nat.two_pow_add_eq_or_of_lt hv, BitVec.toNat_ofNat]
  omega

theorem highBit_toNat (v : Byte) : (v.getLsbD 7).toNat = v.toNat / 128 := by
  rw [sign_eq]
  by_cases h : 128 ≤ v.toNat
  · rw [decide_eq_true h, Bool.toNat_true]
    omega
  · rw [decide_eq_false h, Bool.toNat_false]
    omega

theorem lowBit_toNat (v : Byte) : (v.getLsbD 0).toNat = v.toNat % 2 := by
  rw [← BitVec.testBit_toNat, Nat.toNat_testBit, Nat.pow_zero, Nat.div_one]

/-! ### Instructions on A and FLAG -/

section
variable {i : Instr} {s : State}

/-- A logical instruction: A is the result, CY is 0 (R220 to R228). -/
theorem sequential_logic (v : Byte) (ac : Bool) (hadv : CanAdvance s (instrLength i)) :
    sequential i s (.ok (setAccumulator s (logicOut v ac))) = .next { s with
      a := v
      flag := resultByte s.flag v.toNat ac false
      pc := s.pc + BitVec.ofNat 16 (instrLength i) } := by
  rw [setAccumulator_eq]
  exact sequential_ok rfl rfl rfl hadv

/-- A rotate that leaves the number `n` in A and shifts the bit `out` out (R229 to R232). -/
theorem sequential_rotate {v : Byte} {x : Bool} {n out : Nat} (hv : v = BitVec.ofNat 8 n)
    (hout : x.toNat = out) (hadv : CanAdvance s (instrLength i)) :
    sequential i s (.ok (setRotate s v x)) = .next { s with
      a := BitVec.ofNat 8 n
      flag := carryByte s.flag (decide (out = 1))
      pc := s.pc + BitVec.ofNat 16 (instrLength i) } := by
  have hx : decide (x.toNat = 1) = x := by cases x <;> rfl
  rw [setRotate_eq, hv, ← hout, hx]
  exact sequential_ok rfl rfl rfl hadv

/-- A compare: the flags of A minus the operand, nothing else (R233 to R235). -/
theorem sequential_compare (y : Byte) (hadv : CanAdvance s (instrLength i)) :
    sequential i s (.ok (setFlags s (sub8 s.cfg.acSubMode s.a y false))) = .next { s with
      flag := resultByte s.flag (differenceOf s.a y 0) (borrowAC s.cfg s.a y 0)
        (decide (s.a.toNat < y.toNat))
      pc := s.pc + BitVec.ofNat 16 (instrLength i) } := by
  rw [setFlags_eq, sub8_res_toNat, sub8_ac, sub8_cy]
  exact sequential_ok rfl rfl rfl hadv

/-- An instruction that writes CY alone (R237, R238). -/
theorem sequential_withCY (x : Bool) (hadv : CanAdvance s (instrLength i)) :
    sequential i s (.ok { s with flag := withCY s.flag x }) = .next { s with
      flag := carryByte s.flag x
      pc := s.pc + BitVec.ofNat 16 (instrLength i) } := by
  rw [withCY_eq]
  exact sequential_ok rfl rfl rfl hadv

end

theorem not_eq_ofNat_sub (v : Byte) : ~~~v = BitVec.ofNat 8 (255 - v.toNat) := by
  apply BitVec.eq_of_toNat_eq
  rw [BitVec.toNat_not, BitVec.toNat_ofNat]
  omega

end Sys2Proof.Machine

open Sys2Proof Sys2Proof.Machine

/-- Settles O49: each writes its result to A, AC for AND only, and no carry. -/
theorem logicalInstructions : Obligations.LogicalInstructions := by
  intro r d8 s
  have hani : encode (.ani d8) = [0xE6#8, d8] := rfl
  have hxri : encode (.xri d8) = [0xEE#8, d8] := rfl
  have hori : encode (.ori d8) = [0xF6#8, d8] := rfl
  refine ⟨encode_of_opcodeByte (aluByte_eq 0b100#3 r) rfl,
    encode_of_opcodeByte (aluByte_eq 0b101#3 r) rfl,
    encode_of_opcodeByte (aluByte_eq 0b110#3 r) rfl,
    hani, operandFetchFaults_of_encode rfl hani, hxri, operandFetchFaults_of_encode rfl hxri,
    hori, operandFetchFaults_of_encode rfl hori, fun hadv => ?_, fun hadv => ?_⟩
  · exact ⟨sequential_logic (i := .ana r) _ true hadv,
      sequential_logic (i := .xra r) _ false hadv,
      sequential_logic (i := .ora r) _ false hadv⟩
  · exact ⟨sequential_logic (i := .ani d8) _ true hadv,
      sequential_logic (i := .xri d8) _ false hadv,
      sequential_logic (i := .ori d8) _ false hadv⟩

/-- Settles O50: a shift of A by one, with its own end bit or the old CY entering. -/
theorem rotatesMoveOneBit : Obligations.RotatesMoveOneBit := by
  refine fun s => ⟨rfl, rfl, rfl, rfl, fun hadv => ?_⟩
  have hhigh := highBit_toNat s.a
  have hlow := lowBit_toNat s.a
  refine ⟨sequential_rotate (i := .rlc) ?_ hhigh hadv, sequential_rotate (i := .rrc) ?_ hlow hadv,
    sequential_rotate (i := .ral) (shiftLeft_or_bitByte s.a (flagCY s.flag)) hhigh hadv,
    sequential_rotate (i := .rar) (shiftRight_or_bitByte s.a (flagCY s.flag)) hlow hadv⟩
  · rw [shiftLeft_or_bitByte, hhigh]
  · rw [shiftRight_or_bitByte, hlow]

/-- Settles O51: the flags are those of a subtraction with no borrow in. -/
theorem comparesSetFlagsOnly : Obligations.ComparesSetFlagsOnly := by
  intro r d8 s
  have hcpi : encode (.cpi d8) = [0xFE#8, d8] := rfl
  exact ⟨encode_of_opcodeByte (aluByte_eq 0b111#3 r) rfl, hcpi,
    operandFetchFaults_of_encode rfl hcpi,
    sequential_compare (i := .cmp r) (readOperand s r), sequential_compare (i := .cpi d8) d8⟩

/-- Settles O52: the complement of A is what it lacks to 255; CMC and STC write CY alone. -/
theorem cmaCmcStc : Obligations.CmaCmcStc := by
  refine fun s => ⟨rfl, rfl, rfl, fun hadv => ⟨?_, ?_, ?_⟩⟩
  · rw [← not_eq_ofNat_sub]
    exact sequential_ok (i := .cma) rfl rfl rfl hadv
  · exact sequential_withCY (i := .cmc) (!flagCY s.flag) hadv
  · exact sequential_withCY (i := .stc) true hadv

end

section
/-! SUPPORT. The conditional transfers by their condition, what a call and a return do, and the proofs of the four statements on control transfer and halt (43_control.md R260 to R266, R269). -/

namespace Sys2Proof.Machine

/-! ### Conditions as a bit of FLAG (R21) -/

/-- The FLAG bit a condition names (R21, R47). -/
def conditionBit : Cond → Nat
  | .nz | .z => 6
  | .nc | .c => 0
  | .po | .pe => 2
  | .p | .m => 7

/-- The value of its bit for which a condition holds (R21). -/
def conditionValue : Cond → Bool
  | .nz | .nc | .po | .p => false
  | .z | .c | .pe | .m => true

theorem condHolds_iff (s : State) (cc : Cond) :
    condHolds s cc = true ↔ s.flag.getLsbD (conditionBit cc) = conditionValue cc := by
  cases cc with
  | nz | nc | po | p => exact iff_of_eq (Bool.not_eq_true' _)
  | z | c | pe | m => exact Iff.rfl

theorem condHolds_eq_false {s : State} {cc : Cond}
    (h : s.flag.getLsbD (conditionBit cc) ≠ conditionValue cc) : condHolds s cc = false :=
  Bool.eq_false_iff.mpr (mt (condHolds_iff s cc).mp h)

/-! ### The conditional instructions by their condition -/

/-- A table of a conditional instruction's eight forms, in the order of the condition codes (R106): opcode byte, form, bit and value. -/
def conditionRows {α : Type} (byte : Cond → Byte) (form : Cond → α) : List (Byte × α × Nat × Bool) :=
  [.nz, .z, .nc, .c, .po, .pe, .p, .m].map fun cc =>
    (byte cc, form cc, conditionBit cc, conditionValue cc)

theorem exists_of_mem_conditionRows {α : Type} {byte : Cond → Byte} {form : Cond → α} {op : Byte}
    {a : α} {bit : Nat} {val : Bool} (h : (op, a, bit, val) ∈ conditionRows byte form) :
    ∃ cc, byte cc = op ∧ form cc = a ∧ conditionBit cc = bit ∧ conditionValue cc = val := by
  obtain ⟨cc, -, hrow⟩ := List.mem_map.mp h
  cases hrow
  exact ⟨cc, rfl, rfl, rfl, rfl⟩

/-- The conditional jump of a condition (R261). -/
def jumpOn : Cond → Word → Instr
  | .nz => .jnz
  | .z => .jz
  | .nc => .jnc
  | .c => .jc
  | .po => .jpo
  | .pe => .jpe
  | .p => .jp
  | .m => .jm

/-- The conditional call of a condition (R264). -/
def callOn : Cond → Word → Instr
  | .nz => .cnz
  | .z => .cz
  | .nc => .cnc
  | .c => .cc
  | .po => .cpo
  | .pe => .cpe
  | .p => .cp
  | .m => .cm

/-- The conditional return of a condition (R266). -/
def returnOn : Cond → Instr
  | .nz => .rnz
  | .z => .rz
  | .nc => .rnc
  | .c => .rc
  | .po => .rpo
  | .pe => .rpe
  | .p => .rp
  | .m => .rm

theorem conditionalJumps_eq (x : Word) :
    conditionalJumps = conditionRows (fun cc => opcodeByte (jumpOn cc x)) jumpOn := rfl

theorem conditionalCalls_eq (x : Word) :
    conditionalCalls = conditionRows (fun cc => opcodeByte (callOn cc x)) callOn := rfl

theorem conditionalReturns_eq :
    conditionalReturns = conditionRows (fun cc => opcodeByte (returnOn cc)) returnOn := rfl

theorem exec_jumpOn (cc : Cond) (x : Word) (s : State) :
    exec (jumpOn cc x) s = transfer (jumpOn cc x) s (jumpIf s cc x) := by
  cases cc <;> rfl

theorem exec_callOn (cc : Cond) (x : Word) (s : State) :
    exec (callOn cc x) s = transfer (callOn cc x) s (callIf s cc x) := by
  cases cc <;> rfl

theorem exec_returnOn (cc : Cond) (s : State) :
    exec (returnOn cc) s = transfer (returnOn cc) s (returnIf s cc) := by
  cases cc <;> rfl

section
variable {s : State} {cc : Cond}

theorem exec_jumpOn_taken (x : Word)
    (h : s.flag.getLsbD (conditionBit cc) = conditionValue cc) :
    exec (jumpOn cc x) s = .next { s with pc := x } := by
  rw [exec_jumpOn, jumpIf_taken x ((condHolds_iff s cc).mpr h)]
  rfl

theorem exec_jumpOn_not_taken (x : Word)
    (h : s.flag.getLsbD (conditionBit cc) ≠ conditionValue cc) :
    exec (jumpOn cc x) s = transfer (jumpOn cc x) s (advance 3 s) := by
  rw [exec_jumpOn, jumpIf_not x (condHolds_eq_false h)]

theorem exec_callOn_taken (x : Word)
    (h : s.flag.getLsbD (conditionBit cc) = conditionValue cc) :
    exec (callOn cc x) s = transfer (callOn cc x) s (callTo s 3 x) := by
  rw [exec_callOn, callIf_taken x ((condHolds_iff s cc).mpr h)]

theorem exec_callOn_not_taken (x : Word)
    (h : s.flag.getLsbD (conditionBit cc) ≠ conditionValue cc) :
    exec (callOn cc x) s = transfer (callOn cc x) s (advance 3 s) := by
  rw [exec_callOn, callIf_not x (condHolds_eq_false h)]

theorem exec_returnOn_taken (h : s.flag.getLsbD (conditionBit cc) = conditionValue cc) :
    exec (returnOn cc) s = transfer (returnOn cc) s (returnFrom s) := by
  rw [exec_returnOn, returnIf_taken ((condHolds_iff s cc).mpr h)]

theorem exec_returnOn_not_taken (h : s.flag.getLsbD (conditionBit cc) ≠ conditionValue cc) :
    exec (returnOn cc) s = transfer (returnOn cc) s (advance 1 s) := by
  rw [exec_returnOn, returnIf_not (condHolds_eq_false h)]

end

theorem wf_jumpOn (cc : Cond) (x : Word) : (jumpOn cc x).wf = true := by
  cases cc <;> rfl

theorem wf_callOn (cc : Cond) (x : Word) : (callOn cc x).wf = true := by
  cases cc <;> rfl

theorem encode_jumpOn (cc : Cond) (x : Word) :
    encode (jumpOn cc x) = [opcodeByte (jumpOn cc x), highOf x, lowOf x] :=
  encode_of_word (by cases cc <;> rfl)

theorem encode_callOn (cc : Cond) (x : Word) :
    encode (callOn cc x) = [opcodeByte (callOn cc x), highOf x, lowOf x] :=
  encode_of_word (by cases cc <;> rfl)

theorem encode_returnOn (cc : Cond) : encode (returnOn cc) = [opcodeByte (returnOn cc)] :=
  encode_of_opcodeByte rfl (by cases cc <;> rfl)

/-! ### Transfers taken and not taken -/

/-- The word a push leaves in memory, as the two bytes of its encoding (R15). -/
theorem Pushed.storesWord_bytes {s t : State} {v : Word} (h : Pushed s t v) :
    StoresWord s t (s.sp - 2) (highOf v) (lowOf v) := by
  rw [← concat_hiByte_loByte v, hiByte_eq, loByte_eq] at h
  exact h.storesWord

section
variable {i : Instr} {s : State}

/-- An instruction whose body is the PC advance, in range (R22). -/
theorem exec_of_advance {n : Nat} (h : exec i s = transfer i s (advance n s))
    (hadv : CanAdvance s n) : exec i s = .next { s with pc := s.pc + BitVec.ofNat 16 n } :=
  h.trans (congrArg (commit (opcodeByte i) s) (advance_ok hadv))

/-- The same past 0xFFFF (R22, R314). -/
theorem exec_pcFault_of_advance {n : Nat} (h : exec i s = transfer i s (advance n s))
    (hw : s.cfg.wrap16 = .fault) (hpast : 0xFFFF < s.pc.toNat + n) :
    exec i s = .next (pcFault s (opcodeByte i) n) :=
  h.trans (congrArg (commit (opcodeByte i) s) (advance_raises hw hpast))

/-- An instruction whose body is a call, with the faults in the order of R263. -/
theorem callsTo_of_exec {n : Nat} {x : Word} (h : exec i s = transfer i s (callTo s n x)) :
    CallsTo i s (opcodeByte i) n x := by
  unfold CallsTo
  rw [h]
  refine ⟨fun hw hpast => ?_, fun hw hpc hlow => ?_, fun hadv hroom => ?_⟩
  · exact congrArg (commit (opcodeByte i) s) (callTo_raises_pc x hw hpast)
  · exact congrArg (commit (opcodeByte i) s) (callTo_raises_push x hw hpc hlow)
  · exact ⟨_, congrArg (commit (opcodeByte i) s) (callTo_ok x hadv hroom), rfl,
      Pushed.storesWord_bytes ⟨rfl, rfl, rfl⟩⟩

/-- An instruction whose body is a return (R265). -/
theorem returnsFrom_of_exec (h : exec i s = transfer i s (returnFrom s)) :
    ReturnsFrom i s (opcodeByte i) := by
  unfold ReturnsFrom
  rw [h]
  refine ⟨fun hpop => ?_, fun hw htop => ?_, fun hw htop => ?_⟩
  · rw [← concat_eq_ofNat]
    exact congrArg (commit (opcodeByte i) s) (returnFrom_ok hpop)
  · exact congrArg (commit (opcodeByte i) s) (bind_of_error (pop16_raises_address hw htop))
  · exact congrArg (commit (opcodeByte i) s) (bind_of_error (pop16_raises_sp hw htop))

end

end Sys2Proof.Machine

open Sys2Proof Sys2Proof.Machine

/-- Settles O53: a jump that is taken writes PC alone, and one that is not is the PC advance. -/
theorem jumpsSetPC : Obligations.JumpsSetPC := by
  intro x s
  have hjmp : encode (.jmp x) = [0xC3#8, highOf x, lowOf x] := encode_of_word rfl
  have hpchl : exec .pchl s
      = .next { s with pc := BitVec.ofNat 16 (256 * s.h.toNat + s.l.toNat) } := by
    rw [← concat_eq_ofNat]
    rfl
  refine ⟨hjmp, operandFetchFaults_of_encode rfl hjmp, rfl, rfl, hpchl, fun op jcc bit val hrow => ?_⟩
  rw [conditionalJumps_eq x] at hrow
  obtain ⟨cc, rfl, rfl, rfl, rfl⟩ := exists_of_mem_conditionRows hrow
  have hencode := encode_jumpOn cc x
  exact ⟨hencode, operandFetchFaults_of_encode (wf_jumpOn cc x) hencode, exec_jumpOn_taken x,
    fun hfails => exec_of_advance (exec_jumpOn_not_taken x hfails),
    fun hfails => exec_pcFault_of_advance (exec_jumpOn_not_taken x hfails)⟩

/-- Settles O54: a call that is taken has the body of CALL, and one that is not is the PC advance. -/
theorem callsPushTheReturnAddress : Obligations.CallsPushTheReturnAddress := by
  intro x s
  have hcall : encode (.call x) = [0xCD#8, highOf x, lowOf x] := encode_of_word rfl
  refine ⟨hcall, operandFetchFaults_of_encode rfl hcall, callsTo_of_exec rfl,
    fun op ccc bit val hrow => ?_⟩
  rw [conditionalCalls_eq x] at hrow
  obtain ⟨cc, rfl, rfl, rfl, rfl⟩ := exists_of_mem_conditionRows hrow
  have hencode := encode_callOn cc x
  exact ⟨hencode, operandFetchFaults_of_encode (wf_callOn cc x) hencode,
    fun htaken => callsTo_of_exec (exec_callOn_taken x htaken),
    fun hfails => exec_of_advance (exec_callOn_not_taken x hfails),
    fun hfails => exec_pcFault_of_advance (exec_callOn_not_taken x hfails)⟩

/-- Settles O55: a return that is taken has the body of RET, and one that is not is the PC advance. -/
theorem returnsPopPC : Obligations.ReturnsPopPC := by
  refine fun s => ⟨rfl, returnsFrom_of_exec rfl, fun op rcc bit val hrow => ?_⟩
  rw [conditionalReturns_eq] at hrow
  obtain ⟨cc, rfl, rfl, rfl, rfl⟩ := exists_of_mem_conditionRows hrow
  exact ⟨encode_returnOn cc, fun htaken => returnsFrom_of_exec (exec_returnOn_taken htaken),
    fun hfails => exec_of_advance (exec_returnOn_not_taken hfails),
    fun hfails hw htop => exec_pcFault_of_advance (exec_returnOn_not_taken hfails) hw (by omega)⟩

/-- Settles O57: the body sets the latch and keeps PC, which then advances by one or raises. -/
theorem hltSetsTheHaltLatch : Obligations.HltSetsTheHaltLatch := by
  refine fun s => ⟨rfl, fun hadv => sequential_ok rfl rfl rfl hadv, fun hw htop => ?_⟩
  have hpast : 0xFFFF < s.pc.toNat + 1 := by omega
  exact sequential_pcFault (i := .hlt) hw hpast rfl rfl rfl

end

section
/-! SUPPORT. What a step does to the fault latch, what the host's calls do while it is set, and the proofs of the three statements on them (60_exceptions.md R315 to R317; 70_reset_and_hazards.md R354, R355). -/

namespace Sys2Proof.Machine

/-! ### A step that raises -/

/-- A next state has no fault latched, or is the fault of the byte at PC taken from the state before (R315). -/
theorem step_next_fault {s t : State} (h : step s = .next t) :
    t.fault = none ∨ ∃ f, t = takeFault s (memRead s s.pc) f := by
  obtain ⟨hrunning, -⟩ := step_next h
  obtain ⟨f, -, ht⟩ | ⟨i, hi, hexec⟩ := step_next_cases h
  · exact .inr ⟨f, ht⟩
  · obtain ⟨-, hfault⟩ | ⟨f, -, ht⟩ := exec_next hexec
    · exact .inl (hfault.trans hrunning)
    · exact .inr ⟨f, opcodeByte_of_fetch hi ▸ ht⟩

/-! ### The report of a step call (R317) -/

theorem hostStep_of_next {s t : State} (h : step s = .next t) (hnone : t.fault = none) :
    hostStep s = (.ok, t) := by
  simp only [hostStep, h, hnone]

theorem hostStep_of_takeFault {s : State} {op : Byte} {f : Raise}
    (h : step s = .next (takeFault s op f)) :
    hostStep s = (.fault (faultRecord s.pc op f), takeFault s op f) := by
  simp only [hostStep, h, takeFault_fault]

/-! ### The host's calls while a fault is latched (R316) -/

section
variable {s : State} {r : FaultRecord} (hf : s.fault = some r)
include hf

theorem hostStep_latched : hostStep s = (.fault r, s) := by
  simp only [hostStep, step_latched hf]

theorem runFor_latched (n : Nat) : runFor n s = (.fault r, s) := by
  simp only [runFor, hf]

theorem runEnds_latched (report : RunReport) (t : State) :
    RunEnds s report t ↔ report = .fault r ∧ t = s := by
  simp only [RunEnds, hf]

end

/-! ### The host's register write -/

theorem hostWord_ok {v : Int} (h0 : 0 ≤ v) (h1 : v ≤ 0xFFFF) :
    hostWord v = .ok (BitVec.ofInt 16 v) :=
  if_pos ⟨h0, h1⟩

/-- A value in range is written to any register, and the fault latch is kept (R357). -/
theorem setRegister_keeps_fault (s : State) (reg : RegName) {v : Int} (h0 : 0 ≤ v)
    (h1 : v ≤ 0xFFFF) : ∃ t, setRegister s reg v = .ok t ∧ t.fault = s.fault := by
  cases reg with
  | a | b | c | d | e | h | l | flag => exact ⟨_, rfl, rfl⟩
  | sp | pc =>
    unfold setRegister
    rw [hostWord_ok h0 h1]
    exact ⟨_, rfl, rfl⟩

end Sys2Proof.Machine

open Sys2Proof Sys2Proof.Machine

/-- Settles O8: a raise is taken from the state before the step, and its record is written out. -/
theorem faultsArePrecise : Obligations.FaultsArePrecise := by
  intro s t hstep
  obtain hnone | ⟨f, rfl⟩ := step_next_fault hstep
  · exact .inl hnone
  · exact .inr ⟨raiseKind f, kindCode (raiseKind f), raiseInfo f, rfl⟩

/-- Settles O28: with no fault latched the step answers a next state, and the call reports the fault this state holds. -/
theorem stepReportsItsFault : Obligations.StepReportsItsFault := by
  intro s hrunning
  obtain ⟨-, hanswers⟩ := everyInstructionAnswersANextState
  obtain ⟨t, hstep⟩ := hanswers s hrunning
  obtain hnone | ⟨f, rfl⟩ := step_next_fault hstep
  · rw [hostStep_of_next hstep hnone]
    exact .inl ⟨rfl, hnone, hstep⟩
  · exact .inr ⟨faultRecord s.pc (memRead s s.pc) f, hostStep_of_takeFault hstep, rfl, rfl⟩

/-- Settles O7: the step and each call return the latched record, and each write of the host is a write of another component. -/
theorem latchedFaultIsReturnedAgain : Obligations.LatchedFaultIsReturnedAgain := by
  intro s r hf
  refine ⟨step_latched hf, hostStep_latched hf, runFor_latched hf, runEnds_latched hf, rfl,
    fun x v hx0 hx1 => ⟨_, if_pos ⟨hx0, hx1⟩, hf⟩, fun p v hp0 hp1 hv0 hv1 => ?_,
    fun i v hi0 hi1 hv => ?_, fun reg v hv0 hv1 => hf ▸ setRegister_keeps_fault s reg hv0 hv1,
    fun bytes hlen => ⟨_, if_neg (Nat.not_lt.mpr hlen), hf⟩⟩
  · exact ⟨_, (if_pos ⟨hp0, hp1⟩).trans (if_pos ⟨hv0, hv1⟩), hf⟩
  · exact ⟨_, (if_pos ⟨hi0, hi1⟩).trans (if_pos hv), hf⟩

end

section
/-! SUPPORT. What the host's reads and writes of memory, registers, ports and flag bits do, and the proofs of the five statements on them (70_reset_and_hazards.md R353, R356 to R359). -/

namespace Sys2Proof.Machine

/-! ### Integers from the host as bytes and words (00_scope.md R8) -/

/-- Masking an integer to a byte is taking it modulo 256. -/
theorem ofInt_byte_eq (v : Int) : BitVec.ofInt 8 v = BitVec.ofNat 8 (v % 256).toNat := by
  apply BitVec.eq_of_toNat_eq
  rw [BitVec.toNat_ofInt, BitVec.toNat_ofNat]
  omega

/-- A non-negative integer is masked as the natural number it is. -/
theorem ofInt_of_nonneg {w : Nat} {v : Int} (h : 0 ≤ v) : BitVec.ofInt w v = BitVec.ofNat w v.toNat := by
  rw [← BitVec.ofInt_natCast, Int.toNat_of_nonneg h]

/-! ### Loading a program (R353) -/

/-- A read after a load: from `x` on the bytes of the program, masked, and elsewhere the old memory. -/
theorem Memory.read_loadFrom (m : Memory) (x y : Nat) (bytes : List Nat) :
    Memory.read (loadFrom m x bytes) y
      = if y < x then Memory.read m y
        else (bytes[y - x]?.map (BitVec.ofNat 8)).getD (Memory.read m y) := by
  induction bytes generalizing m x with
  | nil => simp [loadFrom]
  | cons v rest ih =>
    rw [loadFrom, ih, Memory.read_write]
    obtain hlt | rfl | hgt := Nat.lt_trichotomy y x
    · rw [if_pos (by omega), if_neg (by omega), if_pos hlt]
    · simp
    · have hnext : y - x = y - (x + 1) + 1 := by omega
      rw [if_neg (by omega), if_neg (by omega), if_neg (by omega), hnext, List.getElem?_cons_succ]

/-! ### Registers by name (R357) -/

/-- The ten names of R357 are all that name a register. -/
theorem regNamed_eq_none {name : String}
    (h : name ∉ ["A", "B", "C", "D", "E", "H", "L", "SP", "PC", "FLAG"]) : regNamed name = none := by
  simp only [List.mem_cons, List.not_mem_nil, or_false, not_or] at h
  simp only [regNamed, h, if_false]

section
variable {name : String} (s : State) (v : Int)

theorem hostGetReg_unknown (h : regNamed name = none) :
    hostGetReg s name = .error .hostUnknownRegister := by
  simp only [hostGetReg, h]

theorem hostSetReg_unknown (h : regNamed name = none) :
    hostSetReg s name v = .error .hostUnknownRegister := by
  simp only [hostSetReg, h]

theorem hostGetReg_named (r : RegName) (h : regNamed name = some r) :
    hostGetReg s name = .ok (regValue s r) := by
  simp only [hostGetReg, h]

theorem hostSetReg_named (r : RegName) (h : regNamed name = some r) :
    hostSetReg s name v = setRegister s r v := by
  simp only [hostSetReg, h]

end

theorem hostWord_error {v : Int} (h : v < 0 ∨ 0xFFFF < v) :
    hostWord v = .error .hostValueOutOfRange :=
  if_neg (by omega)

end Sys2Proof.Machine

open Sys2Proof Sys2Proof.Machine

/-- Settles O23: a load writes memory alone, and each cell of it reads as the load left it. -/
theorem loadProgramStoresFromZero : Obligations.LoadProgramStoresFromZero := by
  refine fun s bytes => ⟨fun hlong => if_pos hlong,
    fun hfits => ⟨_, if_neg (Nat.not_lt.mpr hfits), rfl, fun x => ?_⟩⟩
  have hread := Memory.read_loadFrom s.mem 0 x.toNat bytes
  rw [if_neg (Nat.not_lt_zero _), Nat.sub_zero] at hread
  refine hread.trans ?_
  cases bytes[x.toNat]? <;> rfl

/-- Settles O24: the address is checked, and a write in range is a byte write of the masked value. -/
theorem memoryCellGetAndSet : Obligations.MemoryCellGetAndSet := by
  refine fun s x v => ⟨fun hout => ?_, fun w hx => ?_⟩
  · have hbad : ¬(0 ≤ x ∧ x ≤ 0xFFFF) := by omega
    exact ⟨if_neg hbad, if_neg hbad⟩
  · subst hx
    have hin : 0 ≤ (w.toNat : Int) ∧ (w.toNat : Int) ≤ 0xFFFF := by omega
    refine ⟨if_pos hin, _, if_pos hin, rfl, storesByte_of_mem ?_⟩
    rw [← ofInt_byte_eq]
    rfl

/-- Settles O25: the ten names name their registers, the byte registers mask, and SP and PC check. -/
theorem registerGetAndSet : Obligations.RegisterGetAndSet := by
  refine fun s v => ⟨fun name hname => ?_, ?_, ?_, fun h0 h1 => ?_, fun hout => ?_⟩
  · have hnone := regNamed_eq_none hname
    exact ⟨hostGetReg_unknown s hnone, hostSetReg_unknown s v hnone⟩
  · exact ⟨hostGetReg_named s .a rfl, hostGetReg_named s .b rfl, hostGetReg_named s .c rfl,
      hostGetReg_named s .d rfl, hostGetReg_named s .e rfl, hostGetReg_named s .h rfl,
      hostGetReg_named s .l rfl, hostGetReg_named s .sp rfl, hostGetReg_named s .pc rfl,
      hostGetReg_named s .flag rfl⟩
  · rw [← ofInt_byte_eq]
    exact ⟨hostSetReg_named s v .a rfl, hostSetReg_named s v .b rfl, hostSetReg_named s v .c rfl,
      hostSetReg_named s v .d rfl, hostSetReg_named s v .e rfl, hostSetReg_named s v .h rfl,
      hostSetReg_named s v .l rfl, hostSetReg_named s v .flag rfl⟩
  · rw [hostSetReg_named s v .sp rfl, hostSetReg_named s v .pc rfl, setRegister, setRegister,
      hostWord_ok h0 h1, ofInt_of_nonneg h0]
    exact ⟨rfl, rfl⟩
  · rw [hostSetReg_named s v .sp rfl, hostSetReg_named s v .pc rfl, setRegister, setRegister,
      hostWord_error hout]
    exact ⟨rfl, rfl⟩

/-- Settles O26: the number is checked before the value, and a write in range is a port write. -/
theorem portGetAndSet : Obligations.PortGetAndSet := by
  refine fun s p v => ⟨fun hout => ?_, fun q hp => ?_⟩
  · have hbad : ¬(0 ≤ p ∧ p ≤ 0xFF) := by omega
    exact ⟨if_neg hbad, if_neg hbad⟩
  · subst hp
    have hin : 0 ≤ (q.toNat : Int) ∧ (q.toNat : Int) ≤ 0xFF := by omega
    refine ⟨if_pos hin, fun hout => (if_pos hin).trans (if_neg (by omega)), fun h0 h1 => ?_⟩
    refine ⟨_, (if_pos hin).trans (if_pos ⟨h0, h1⟩), rfl, fun q' => ?_⟩
    rw [ofInt_of_nonneg h0]
    exact portRead_portWrite s q q' _

/-- Settles O27: the index is checked before the value, and a write in range sets that bit of FLAG. -/
theorem flagBitGetAndSet : Obligations.FlagBitGetAndSet := by
  refine fun s i v => ⟨fun hout => ?_, fun k hi hk => ?_⟩
  · have hbad : ¬(0 ≤ i ∧ i ≤ 7) := by omega
    exact ⟨if_neg hbad, if_neg hbad⟩
  · subst hi
    have hin : 0 ≤ (k : Int) ∧ (k : Int) ≤ 7 := by omega
    exact ⟨if_pos hin, fun h0 h1 => (if_pos hin).trans (if_neg (not_or.mpr ⟨h0, h1⟩)),
      fun hv => ⟨_, (if_pos hin).trans (if_pos hv), rfl, fun j hj => setBit_getLsbD s.flag k j _ hj⟩⟩

end

section
/-! SUPPORT. What the loop of a run does at one call of `step()`, how `runFor` and `run` agree, the run over NOPs, and the proofs of the two statements on them (70_reset_and_hazards.md R355, R360, R367; 44_unlisted_and_unimplemented.md R293). -/

namespace Sys2Proof.Machine

/-! ### One call of `step()` in the loop (R355) -/

/-- A step call answers Ok with the state of the step, or a fault: never a refusal. -/
theorem hostStep_cases (s : State) :
    (∃ t, hostStep s = (.ok, t) ∧ step s = .next t) ∨ ∃ r t, hostStep s = (.fault r, t) := by
  cases hf : s.fault with
  | some r => exact .inr ⟨r, s, hostStep_latched hf⟩
  | none =>
    obtain ⟨hok, -, hstep⟩ | ⟨r, hfault, -⟩ := stepReportsItsFault s hf
    · exact .inl ⟨_, Prod.ext hok rfl, hstep⟩
    · exact .inr ⟨r, _, hfault⟩

section
variable {s t : State} (n : Nat)

theorem runLoop_fault {r : FaultRecord} (h : hostStep s = (.fault r, t)) :
    runLoop (n + 1) s = (.fault r, t) := by
  simp only [runLoop, h]

theorem runLoop_halted (h : hostStep s = (.ok, t)) (hh : t.isHalted = true) :
    runLoop (n + 1) s = (.halted, t) := by
  simp only [runLoop, h, hh, if_true]

theorem runLoop_again (h : hostStep s = (.ok, t)) (hh : t.isHalted = false) :
    runLoop (n + 1) s = runLoop n t := by
  simp only [runLoop, h, hh, Bool.false_eq_true, if_false]

end

/-- Everything one call can do to the loop: end it with a report that does not depend on the budget left, or go on in the next state. -/
theorem loop_cases (s : State) :
    (∃ report t, report ≠ .outOfSteps ∧ LoopEnds s report t ∧ ∀ n, runLoop (n + 1) s = (report, t))
    ∨ ∃ u, step s = .next u ∧ (∀ report t, LoopEnds u report t → LoopEnds s report t)
        ∧ ∀ n, runLoop (n + 1) s = runLoop n u := by
  obtain ⟨t, hcall, hstep⟩ | ⟨r, t, hcall⟩ := hostStep_cases s
  · cases hh : t.isHalted with
    | true => exact .inl ⟨.halted, t, nofun, .halted hcall hh, fun n => runLoop_halted n hcall hh⟩
    | false =>
      exact .inr ⟨t, hstep, fun _ _ h => .again hcall hh h, fun n => runLoop_again n hcall hh⟩
  · exact .inl ⟨.fault r, t, nofun, .fault hcall, fun n => runLoop_fault n hcall⟩

/-! ### The loop with a budget and the loop without (R355, R367) -/

theorem runLoop_of_loopEnds {s t : State} {report : RunReport} (h : LoopEnds s report t) :
    report ≠ .outOfSteps ∧ ∃ n, runLoop n s = (report, t) := by
  induction h with
  | fault h => exact ⟨nofun, 1, runLoop_fault 0 h⟩
  | halted h hh => exact ⟨nofun, 1, runLoop_halted 0 h hh⟩
  | again h hh _ ih =>
    obtain ⟨hreport, n, hn⟩ := ih
    exact ⟨hreport, n + 1, (runLoop_again n h hh).trans hn⟩

theorem loopEnds_of_runLoop {n : Nat} {s t : State} {report : RunReport}
    (h : runLoop n s = (report, t)) (hreport : report ≠ .outOfSteps) : LoopEnds s report t := by
  induction n generalizing s with
  | zero => cases h; exact absurd rfl hreport
  | succ n ih =>
    obtain ⟨report', t', -, hends, hrun⟩ | ⟨u, -, hends, hrun⟩ := loop_cases s
    · cases (hrun n).symm.trans h
      exact hends
    · exact hends report t (ih ((hrun n).symm.trans h))

/-- A larger budget changes no report but OutOfSteps. -/
theorem runLoop_mono {n m : Nat} {s t : State} {report : RunReport} (hle : n ≤ m)
    (h : runLoop n s = (report, t)) (hreport : report ≠ .outOfSteps) :
    runLoop m s = (report, t) := by
  induction n generalizing s m with
  | zero => cases h; exact absurd rfl hreport
  | succ n ih =>
    obtain ⟨k, rfl⟩ := Nat.exists_eq_add_of_lt hle
    obtain ⟨_, _, -, -, hrun⟩ | ⟨u, -, -, hrun⟩ := loop_cases s
    · exact (hrun _).trans ((hrun n).symm.trans h)
    · exact (hrun _).trans (ih (Nat.le_add_right n k) ((hrun n).symm.trans h))

theorem core_run_next (n : Nat) {s u : State} (h : step s = .next u) :
    Host.Core.run core (n + 1) s = Host.Core.run core n u := by
  have hcore : core.step s = .next u := h
  simp only [Host.Core.run, hcore]

/-- A budget used up is that many steps, all of them to a next state. -/
theorem core_run_of_outOfSteps {n : Nat} {s t : State} (h : runLoop n s = (.outOfSteps, t)) :
    Host.Core.run core n s = .next t := by
  induction n generalizing s with
  | zero => cases h; rfl
  | succ n ih =>
    obtain ⟨_, _, hreport, -, hrun⟩ | ⟨u, hstep, -, hrun⟩ := loop_cases s
    · cases (hrun n).symm.trans h
      exact absurd rfl hreport
    · exact (core_run_next n hstep).trans (ih ((hrun n).symm.trans h))

/-! ### `runFor` and `run` (R355, R367) -/

section
variable {s : State} (hrunning : s.fault = none)
include hrunning

theorem runFor_running (n : Nat) : runFor n s = runLoop n (runStart s) := by
  simp only [runFor, hrunning]

theorem runEnds_running (report : RunReport) (t : State) :
    RunEnds s report t ↔ LoopEnds (runStart s) report t := by
  simp only [RunEnds, hrunning]

end

theorem runEnds_iff_runFor (s t : State) (report : RunReport) :
    RunEnds s report t ↔ report ≠ .outOfSteps ∧ ∃ n, runFor n s = (report, t) := by
  cases hf : s.fault with
  | some r =>
    simp only [runEnds_latched hf, runFor_latched hf, Prod.mk.injEq, exists_const]
    exact ⟨fun ⟨hr, ht⟩ => ⟨hr ▸ nofun, hr.symm, ht.symm⟩, fun ⟨_, hr, ht⟩ => ⟨hr.symm, ht.symm⟩⟩
  | none =>
    simp only [runEnds_running hf, runFor_running hf]
    exact ⟨runLoop_of_loopEnds, fun ⟨hreport, _, hn⟩ => loopEnds_of_runLoop hn hreport⟩

theorem runFor_mono {n m : Nat} {s t : State} {report : RunReport} (hle : n ≤ m)
    (h : runFor n s = (report, t)) (hreport : report ≠ .outOfSteps) : runFor m s = (report, t) := by
  cases hf : s.fault with
  | some r => rwa [runFor_latched hf] at h ⊢
  | none =>
    rw [runFor_running hf] at h ⊢
    exact runLoop_mono hle h hreport

/-! ### A run over NOPs (R293, R360) -/

/-- The record of a NOP whose PC advance leaves 0xFFFF (R310, R314). -/
def nopPastTop : FaultRecord := ⟨.registerOutOfRange, 4, 0xFFFF#16, 0x00#8, .register .pc 0x10000⟩

section
variable {s : State} (hrunning : s.fault = none) (hnop : memRead s s.pc = 0x00#8)
include hrunning hnop

theorem step_of_nop : step s = exec .nop s := by
  rw [step_running hrunning, fetch_i1 (i := .nop) (by rw [hnop]; rfl)]

/-- A NOP that is not the last byte of memory advances PC alone. -/
theorem hostStep_nop (hadv : CanAdvance s 1) : hostStep s = (.ok, { s with pc := s.pc + 1 }) :=
  hostStep_of_next ((step_of_nop hrunning hnop).trans (sequential_ok rfl rfl rfl hadv)) hrunning

/-- A NOP at 0xFFFF takes the PC fault (R314). -/
theorem hostStep_nop_top (hw : s.cfg.wrap16 = .fault) (htop : s.pc = 0xFFFF#16) :
    hostStep s = (.fault nopPastTop, { s with fault := some nopPastTop }) := by
  have hpast : 0xFFFF < s.pc.toNat + 1 := by rw [htop]; decide
  have hrecord : faultRecord s.pc (opcodeByte .nop)
      (.registerOutOfRange .pc (s.pc.toNat + instrLength .nop)) = nopPastTop := by rw [htop]; rfl
  rw [← hrecord]
  exact hostStep_of_takeFault ((step_of_nop hrunning hnop).trans
    (sequential_raises_pc rfl rfl rfl hw hpast))

end

section
variable {s : State} (hrunning : s.fault = none) (hhalt : s.isHalted = false)
  (hempty : ∀ x, memRead s x = 0x00#8)
include hrunning hhalt hempty

/-- The loop over NOPs ends at 0xFFFF, whatever the distance to it. -/
theorem loopEnds_nops (hw : s.cfg.wrap16 = .fault) :
    LoopEnds s (.fault nopPastTop) { s with pc := 0xFFFF#16, fault := some nopPastTop } := by
  induction hdist : 0xFFFF - s.pc.toNat generalizing s with
  | zero =>
    have htop : s.pc = 0xFFFF#16 := by bv_omega
    rw [← htop]
    exact .fault (hostStep_nop_top hrunning (hempty _) hw htop)
  | succ d ih =>
    have hnext : 0xFFFF - (s.pc + 1).toNat = d := by bv_omega
    have hrest := ih (s := { s with pc := s.pc + 1 }) hrunning hhalt hempty hw hnext
    exact .again (hostStep_nop hrunning (hempty _) (.inr (by omega))) hhalt hrest

/-- When PC wraps the loop over NOPs goes on: no budget suffices. -/
theorem runLoop_nops (hw : s.cfg.wrap16 = .wrap) (n : Nat) : (runLoop n s).1 = .outOfSteps := by
  induction n generalizing s with
  | zero => rfl
  | succ n ih =>
    rw [runLoop_again n (hostStep_nop hrunning (hempty _) (.inl hw)) hhalt]
    exact ih (s := { s with pc := s.pc + 1 }) hrunning hhalt hempty hw

end

end Sys2Proof.Machine

open Sys2Proof Sys2Proof.Machine

/-- Settles O29: the two agree through the loop, and two runs that end agree within the larger of their budgets. -/
theorem runForAgreesWithRun : Obligations.RunForAgreesWithRun := by
  refine ⟨runEnds_iff_runFor, fun s t t' report report' h h' => ?_,
    fun _ _ _ _ _ hle h hreport => runFor_mono hle h hreport, fun s t n h => ?_⟩
  · obtain ⟨hreport, n, hn⟩ := (runEnds_iff_runFor s t report).mp h
    obtain ⟨hreport', n', hn'⟩ := (runEnds_iff_runFor s t' report').mp h'
    have hmax := runFor_mono (Nat.le_max_left n n') hn hreport
    have hmax' := runFor_mono (Nat.le_max_right n n') hn' hreport'
    exact Prod.mk.inj (hmax.symm.trans hmax')
  · have hloop : runLoop n (runStart s) = (.outOfSteps, t) := by
      cases hf : s.fault with
      | some r => cases (runFor_latched hf n).symm.trans h
      | none => exact (runFor_running hf n).symm.trans h
    exact core_run_of_outOfSteps hloop

/-- Settles O30: the memory after reset holds NOPs alone, and a run starts there with the halt latch clear. -/
theorem emptyMachineRunsOffTheTop : Obligations.EmptyMachineRunsOffTheTop := by
  intro s
  have hempty : ∀ x, memRead (runStart (hostReset s)) x = 0x00#8 := fun _ => rfl
  refine ⟨fun hw => (runEnds_running rfl _ _).mpr (loopEnds_nops rfl rfl hempty hw), fun hw n => ?_⟩
  rw [runFor_running rfl]
  exact runLoop_nops rfl rfl hempty hw n

end

section
/-! SUPPORT. RST by its parameter, DAA's correction digit by digit, DAA, IN and OUT in each of their modes, and the proofs of the five statements on these, on the unimplemented instructions and on sample words (30_encoding.md R107, R111; 43_control.md R267; 44_unlisted_and_unimplemented.md R290 to R297). -/

namespace Sys2Proof.Machine

/-! ### RST (R107, R267) -/

theorem opcodeByte_rst (n : BitVec 3) :
    opcodeByte (.rst n) = BitVec.ofNat 8 (0xC7 + 8 * n.toNat) := by
  revert n
  decide

theorem restartTarget_eq (n : BitVec 3) : restartTarget n = BitVec.ofNat 16 (8 * n.toNat) := by
  rw [restartTarget, Nat.mul_comm]

theorem exec_rst_pushes (n : BitVec 3) {s : State} (h : s.cfg.rstPushes = true) :
    exec (.rst n) s = transfer (.rst n) s (callTo s 1 (restartTarget n)) :=
  congrArg (transfer (.rst n) s) (if_pos h)

theorem exec_rst_jumps (n : BitVec 3) {s : State} (h : s.cfg.rstPushes = false) :
    exec (.rst n) s = .next { s with pc := restartTarget n } :=
  congrArg (transfer (.rst n) s) (if_neg (Bool.not_eq_true _ ▸ h))

/-! ### The decimal adjustment (R290, `DAA_MODE = Datasheet`) -/

/-- What DAA adds to correct the low digit. -/
def lowCorrection (s : State) : Nat := if 9 < s.a.toNat % 16 ∨ flagAC s.flag = true then 0x06 else 0x00

/-- Whether DAA corrects the high digit; it is also the CY that DAA leaves. -/
def highCarry (s : State) : Bool := decide (0x99 < s.a.toNat) || flagCY s.flag

/-- What DAA adds to correct the high digit. -/
def highCorrection (s : State) : Nat := if highCarry s = true then 0x60 else 0x00

/-- The two digits are corrected apart; CY, which DAA keeps where the high one is not, is 0 there. -/
theorem decimalCorrection_eq (s : State) :
    decimalCorrection s.a (flagCY s.flag) (flagAC s.flag)
      = (lowCorrection s + highCorrection s, highCarry s) := by
  have hlow : (if (decide (s.a.toNat % 16 > 9) || flagAC s.flag) = true then 0x06 else 0x00)
      = lowCorrection s := by
    simp only [lowCorrection, Bool.or_eq_true, decide_eq_true_eq]
  rw [decimalCorrection, hlow, highCorrection]
  cases hhigh : highCarry s with
  | true => exact if_pos hhigh
  | false =>
    obtain ⟨-, hcy⟩ := Bool.or_eq_false_iff.mp hhigh
    exact (if_neg (Bool.not_eq_true _ ▸ hhigh)).trans (congrArg (Prod.mk _) hcy)

/-- The auxiliary carry sees the low digit's correction alone. -/
theorem correction_mod (s : State) : (lowCorrection s + highCorrection s) % 16 = lowCorrection s := by
  unfold lowCorrection highCorrection
  split <;> split <;> rfl

/-- Everything `decimalAdjust` gives. -/
theorem decimalAdjust_eq (s : State) :
    decimalAdjust s = {
      res := BitVec.ofNat 8 (s.a.toNat + lowCorrection s + highCorrection s)
      cy := highCarry s
      ac := decide (15 < s.a.toNat % 16 + lowCorrection s) } := by
  simp only [decimalAdjust, decimalCorrection_eq, correction_mod, Nat.add_assoc, gt_iff_lt]

/-! ### DAA, IN and OUT by their modes (R290 to R292) -/

section
variable {s : State}

/-- An instruction whose body raises `NotImplemented` leaves its record and nothing else (R310, R315). -/
theorem sequential_notImplemented {i : Instr} {body : Except Raise State}
    (h : body = .error .notImplemented) :
    sequential i s body = .next (latched s .notImplemented 2 (opcodeByte i) .none) :=
  sequential_raises h

theorem exec_daa_datasheet (h : s.cfg.daaMode = .datasheet) (hadv : CanAdvance s 1) :
    exec .daa s = .next { setAccumulator s (decimalAdjust s) with pc := s.pc + 1 } :=
  sequential_ok (i := .daa) (by rw [h]) rfl rfl hadv

theorem exec_inp_datasheet (p : Byte) (h : s.cfg.ioMode = .datasheet) (hadv : CanAdvance s 2) :
    exec (.inp p) s = .next { s with a := portRead s p, pc := s.pc + 2 } :=
  sequential_ok (i := .inp p) (t := { s with a := portRead s p }) (by rw [h]) rfl rfl hadv

theorem exec_out_datasheet (p : Byte) (h : s.cfg.ioMode = .datasheet) (hadv : CanAdvance s 2) :
    exec (.out p) s = .next { portWrite s p s.a with pc := s.pc + 2 } :=
  sequential_ok (i := .out p) (t := portWrite s p s.a) (by rw [h]) rfl rfl hadv

end

end Sys2Proof.Machine

open Sys2Proof Sys2Proof.Machine

/-- Settles O56: with its push RST has the body of a call to its vector, and without it that of a jump there. -/
theorem rstCallsItsVector : Obligations.RstCallsItsVector := by
  intro n s
  dsimp only
  rw [← opcodeByte_rst, ← restartTarget_eq]
  exact ⟨rfl, fun hpush => callsTo_of_exec (exec_rst_pushes n hpush), exec_rst_jumps n⟩

/-- Settles O58: the body raises, or writes A corrected digit by digit with the flags of the result. -/
theorem daaFollowsItsMode : Obligations.DaaFollowsItsMode := by
  refine fun s => ⟨rfl, fun hmode => sequential_notImplemented (i := .daa) (by rw [hmode]),
    fun hmode hadv => ?_⟩
  rw [exec_daa_datasheet hmode hadv, setAccumulator_eq, decimalAdjust_eq, BitVec.toNat_ofNat]
  rfl

/-- Settles O59: the body raises, or reads the port into A, or writes A to the port and nothing else. -/
theorem inAndOutFollowTheirMode : Obligations.InAndOutFollowTheirMode := by
  intro p s
  have hin : encode (.inp p) = [0xDB#8, p] := rfl
  have hout : encode (.out p) = [0xD3#8, p] := rfl
  refine ⟨hin, operandFetchFaults_of_encode rfl hin, hout, operandFetchFaults_of_encode rfl hout,
    fun hmode => ?_, fun hmode hadv => ?_⟩
  · exact ⟨sequential_notImplemented (i := .inp p) (by rw [hmode]),
      sequential_notImplemented (i := .out p) (by rw [hmode])⟩
  · exact ⟨exec_inp_datasheet p hmode hadv, _, exec_out_datasheet p hmode hadv, rfl,
      fun q => portRead_portWrite s p q s.a⟩

/-- Settles O4: the words are encodings, which decode to their instructions; MVI M's byte alone has no operand. -/
theorem sampleWordsDecode : Obligations.SampleWordsDecode :=
  ⟨decode_encode (i := .mvi .a 0x05#8) rfl [], decode_encode (i := .mvi .b 0x03#8) rfl [],
    decode_encode (i := .add .b) rfl [], decode_encode (i := .hlt) rfl [],
    decode_encode (i := .jmp 0x0003#16) rfl [0x76#8], decode_encode (i := .mov .a .m) rfl [],
    decode_encode (i := .lxi .sp 0xFFF0#16) rfl [], decode_encode (i := .push .psw) rfl [],
    decode_encode (i := .jnz 0x0006#16) rfl [], decode_encode (i := .daa) rfl [],
    decode_encode (i := .ana .m) rfl [], rfl⟩

/-- Settles O60: NOP's body keeps the state, and the other four only raise. -/
theorem nopAndTheUnimplementedInstructions : Obligations.NopAndTheUnimplementedInstructions :=
  ⟨rfl, rfl, rfl, rfl, rfl, fun _ => ⟨sequential_ok (i := .nop) rfl rfl rfl, rfl, rfl, rfl, rfl⟩⟩

end
